-- ==== Sys2Proof/Word.lean ====
section
/-! DEFINITION. The word types of P25RX (00_scope.md rule R10): what the spec treats as bits, under the names it uses. -/

namespace Sys2Proof

/-- A dibit: a 2-bit symbol; bit 1 is the bit transmitted first (20_memory.md rule R72). -/
abbrev Dibit := BitVec 2

/-- A phase in BAM16: one turn is 65536 (00_scope.md rule R17). -/
abbrev Phase := BitVec 16

/-- One signed 16-bit sample component (30_encoding.md rule R91). -/
abbrev Component := BitVec 16

/-- An 8-bit register number on the control port (10_state.md rule R43). -/
abbrev RegNum := BitVec 8

/-- The data word of the control port, and the 32-bit counters (00_scope.md rule R10). -/
abbrev Word32 := BitVec 32

/-- A 63-bit word of the NID code (42_nid_decoder.md rule R191). -/
abbrev CodeWord := BitVec 63

end Sys2Proof
end

