-- ==== Sys2Proof/Syntax.lean ====
section
/-! DEFINITION. The operations of P25RX (00_scope.md rule R11): one constructor per row of spec/opcode_table.json,
and the input events as the ports present them (30_encoding.md rules R90 to R92). -/

namespace Sys2Proof

/-- The cause of a LossOfSignal marker (30_encoding.md rule R102): 1 energy below squelch threshold, 2 timing
divergence, 3 injected through SYMIN. No other cause exists. -/
inductive LosCause where
  | energy
  | timing
  | injected
deriving DecidableEq, Repr

/-- An operation. The first ten are what an input event decodes to (30_encoding.md rule R93); the last five are the
internal sub-operations, which have no encoding (rule R90) and are reached from the others. -/
inductive Instr where
  /-- `RST`, the reset input (70_reset_and_hazards.md rule R270). -/
  | rst
  /-- `SAMPLE(I, Q)` (40_demodulator.md rule R120). -/
  | sample (i q : Component)
  /-- `CSRR(a)` (43_control_port.md rule R216). -/
  | csrr (a : RegNum)
  /-- `CSRW(a, v)` (43_control_port.md rule R217). -/
  | csrw (a : RegNum) (v : Word32)
  /-- `SRST` (43_control_port.md rule R220). -/
  | srst
  /-- `FLUSH` (43_control_port.md rule R221); `thenClr` is bit 1 of the CMD word: CLRCNT is done after FLUSH (rule R219). -/
  | flush (thenClr : Bool)
  /-- `CLRCNT` alone (43_control_port.md rule R222). -/
  | clrcnt
  /-- A write of STATUS: write-1-to-clear of STATUS[12:8] (43_control_port.md rule R224). -/
  | statusw1c (clr : BitVec 5)
  /-- `SYM(D, CONF)` (43_control_port.md rule R223). -/
  | sym (d : Dibit) (conf : BitVec 8)
  /-- `LOSINJ` (43_control_port.md rule R223). -/
  | losinj
  /-- `STROBE(sig)` (40_demodulator.md rule R130), internal. -/
  | strobe (sig : Bool)
  /-- `UNLOCK(cause)` (40_demodulator.md rule R139), internal. -/
  | unlock (cause : LosCause)
  /-- `DIBIT(d, conf)` (41_framesync.md rule R160), internal. -/
  | dibit (d : Dibit) (conf : BitVec 8)
  /-- `LOSMARK(cause)` (41_framesync.md rule R171), internal. -/
  | losmark (cause : LosCause)
  /-- `NIDDEC` (42_nid_decoder.md rule R190), internal. -/
  | niddec
deriving DecidableEq, Repr

/-- One input event as a port presents it: the reset input, a word of the sample port (30_encoding.md rule R91), or a
transaction of the control port (rule R92). -/
inductive InEvent where
  | reset
  | sampleWord (w : BitVec 32)
  | transaction (w : BitVec 41)
deriving DecidableEq, Repr

/-- Why a number of a given width is no word of any port. -/
inductive WordRefusal where
  /-- A word of at most 32 bits was announced and the number does not fit 32 bits. -/
  | aboveSampleWord
  /-- A wider word was announced and the number does not fit the 41 bits of a transaction. -/
  | aboveTransaction
deriving DecidableEq, Repr

end Sys2Proof
end

