-- ==== Sys2Proof/WellFormed.lean ====
section
/-! DEFINITION. Which operations are well-formed: the ones that an event decodes to or that a rule calls with these
operands. A write of CMD, STATUS or SYMIN is decoded further (30_encoding.md rule R93), so it is not a plain CSRW;
UNLOCK is called with cause 1 or 2 only (40_demodulator.md rule R139). -/

namespace Sys2Proof

/-- A CMD word with no command bit set: bits 31, 1 and 0 are all 0 (30_encoding.md rule R94). -/
def isNoCommand (v : Word32) : Bool :=
  !v.getLsbD 31 && !v.getLsbD 1 && !v.getLsbD 0

/-- Is a write of register `a` with data `v` a plain CSRW, one that rule R93 does not decode further? -/
def isPlainWrite (a : RegNum) (v : Word32) : Bool :=
  (a != 0x02#8 || isNoCommand v) && a != 0x03#8 && a != 0x19#8

/-- The well-formed operations. -/
def Instr.wellFormed : Instr → Bool
  | .csrw a v => isPlainWrite a v
  | .unlock cause => cause != .injected
  | .rst | .sample _ _ | .csrr _ | .srst | .flush _ | .clrcnt | .statusw1c _ | .sym _ _ | .losinj
  | .strobe _ | .dibit _ _ | .losmark _ | .niddec => true

/-- The operations an input event can be (30_encoding.md rule R90): all but the internal sub-operations. -/
def Instr.isEvent : Instr → Bool
  | .strobe _ | .unlock _ | .dibit _ _ | .losmark _ | .niddec => false
  | .rst | .sample _ _ | .csrr _ | .csrw _ _ | .srst | .flush _ | .clrcnt | .statusw1c _ | .sym _ _
  | .losinj => true

end Sys2Proof
end

