-- ==== Sys2Proof/Decode.lean ====
section
/-! DEFINITION. Decoding an input event into an operation (30_encoding.md rules R90 to R96) and encoding an operation
as an event. Every word of every port is legal (rule R96), so decoding an event is total; a number that fits no port
word is refused by name. -/

namespace Sys2Proof

/-- The sample word (rule R91): I in bits 15:0, Q in bits 31:16. -/
def decodeSample (w : BitVec 32) : Instr :=
  .sample (w.extractLsb' 0 16) (w.extractLsb' 16 16)

/-- The CMD word (rule R94). Bit 31 wins; then bit 0 is FLUSH, with CLRCNT after it if bit 1 is also 1; then bit 1
alone. A word with none of the three is a write that does nothing. -/
def decodeCmd (v : Word32) : Instr :=
  if v.getLsbD 31 then .srst
  else if v.getLsbD 0 then .flush (v.getLsbD 1)
  else if v.getLsbD 1 then .clrcnt
  else .csrw 0x02#8 v

/-- The SYMIN word (rule R95): LOS in bit 8, D in bits 1:0, CONF in bits 23:16. -/
def decodeSymin (v : Word32) : Instr :=
  if v.getLsbD 8 then .losinj else .sym (v.extractLsb' 0 2) (v.extractLsb' 16 8)

/-- A write transaction (rule R93, case 4). -/
def decodeWrite (a : RegNum) (v : Word32) : Instr :=
  if a = 0x02#8 then decodeCmd v
  else if a = 0x03#8 then .statusw1c (v.extractLsb' 8 5)
  else if a = 0x19#8 then decodeSymin v
  else .csrw a v

/-- The control-port transaction (rule R92): WE in bit 40, ADDR in bits 39:32, WDATA in bits 31:0. -/
def decodeTransaction (w : BitVec 41) : Instr :=
  if w.getLsbD 40 then decodeWrite (w.extractLsb' 32 8) (w.extractLsb' 0 32)
  else .csrr (w.extractLsb' 32 8)

/-- Decode of an input event (rule R93). Total: no word faults (rule R96). -/
def decode : InEvent → Instr
  | .reset => .rst
  | .sampleWord w => decodeSample w
  | .transaction w => decodeTransaction w

/-- The port word that an `nbits`-wide field of value `w` is: no bits are the reset input, up to 32 bits a sample word,
more a control transaction, whose 41 bits lie at the low end of a wider container (the opcode table's numbering). -/
def parseWord (nbits w : Nat) : Except WordRefusal InEvent :=
  if nbits = 0 then .ok .reset
  else if nbits ≤ 32 then
    if w < 2 ^ 32 then .ok (.sampleWord (BitVec.ofNat 32 w)) else .error .aboveSampleWord
  else if w < 2 ^ 41 then .ok (.transaction (BitVec.ofNat 41 w)) else .error .aboveTransaction

/-- The instruction the decoder reads from a word numbered as spec/opcode_table.json numbers it. -/
def decodeTableWord (nbits w : Nat) : Option Instr :=
  match parseWord nbits w with
  | .ok ev => some (decode ev)
  | .error _ => none

/-! The encoder, from the same tables. -/

/-- The transaction word of rule R92. -/
def transactionWord (we : Bool) (a : RegNum) (v : Word32) : BitVec 41 :=
  (BitVec.ofBool we ++ a ++ v).setWidth 41

/-- The write transaction `W a v` of rule R113. -/
def writeEvent (a : RegNum) (v : Word32) : InEvent := .transaction (transactionWord true a v)

/-- The SYMIN word of rule R95 for `SYM(d, conf)`: CONF in bits 23:16, D in bits 1:0, every other bit 0. -/
def syminWord (d : Dibit) (conf : BitVec 8) : Word32 :=
  (conf ++ 0#14 ++ d).setWidth 32

/-- The STATUS write word: the bits to clear at 12:8, every other bit 0 (rule R224). -/
def statusWord (clr : BitVec 5) : Word32 := (clr ++ 0#8).setWidth 32

/-- The event that encodes an operation, ignored bits 0; none for the internal sub-operations (rule R90). -/
def encode : Instr → Option InEvent
  | .rst => some .reset
  | .sample i q => some (.sampleWord (q ++ i))
  | .csrr a => some (.transaction (transactionWord false a 0#32))
  | .csrw a v => some (writeEvent a v)
  | .srst => some (writeEvent 0x02#8 0x80000000#32)
  | .flush thenClr => some (writeEvent 0x02#8 (if thenClr then 0x00000003#32 else 0x00000001#32))
  | .clrcnt => some (writeEvent 0x02#8 0x00000002#32)
  | .statusw1c clr => some (writeEvent 0x03#8 (statusWord clr))
  | .sym d conf => some (writeEvent 0x19#8 (syminWord d conf))
  | .losinj => some (writeEvent 0x19#8 0x00000100#32)
  | .strobe _ | .unlock _ | .dibit _ _ | .losmark _ | .niddec => none

/-- The `match` and `mask` columns of spec/opcode_table.json for the row of an operation whose row has them. -/
def tableRow : Instr → Option (Nat × Nat)
  | .sample _ _ => some (0x00000000, 0x00000000)
  | .csrr _ => some (0x00000000000, 0x10000000000)
  | .csrw _ _ => some (0x10000000000, 0x10000000000)
  | .srst => some (0x10280000000, 0x1ff80000000)
  | .flush _ => some (0x10200000001, 0x1ff80000001)
  | .clrcnt => some (0x10200000002, 0x1ff80000002)
  | .statusw1c _ => some (0x10300000000, 0x1ff00000000)
  | .sym _ _ => some (0x11900000000, 0x1ff00000100)
  | .losinj => some (0x11900000100, 0x1ff00000100)
  | .rst | .strobe _ | .unlock _ | .dibit _ _ | .losmark _ | .niddec => none

/-- The number of bits a port word has and its value. -/
def eventNumber : InEvent → Nat × Nat
  | .reset => (0, 0)
  | .sampleWord w => (32, w.toNat)
  | .transaction w => (41, w.toNat)

end Sys2Proof
end

