-- ==== Sys2Proof/Config.lean ====
section
/-! DEFINITION. The constants fixed in hardware (10_state.md rules R44 and R68). The spec leaves no value of this
block open (00_scope.md rule R12, 10_state.md rules R21 and R66), so there is no free value here. -/

namespace Sys2Proof.Config

/-- `LVL` of rule R68: one eighth of a turn in BAM16. -/
def lvl : Int := 8192

/-- `ATAN[0..15]` of rule R68, in units of 1/2^24 turn. -/
def atan : List Int :=
  [2097152, 1238021, 654136, 332050, 166669, 83416, 41718, 20860,
   10430, 5215, 2608, 1304, 652, 326, 163, 81]

/-- `GPOLY` of rule R68: the generator polynomial of the NID code, degree 47. -/
def gpoly : Nat := 0xCD930BDD3B2B

/-- The value of the ID register (rule R44). -/
def idValue : BitVec 32 := 0x50323501#32

/-- The number of delay-line entries (rule R26). -/
def delayLength : Nat := 48

/-- The most bit errors the code corrects: the largest legal NIDT (rule R60). -/
def maxRadius : Nat := 11

end Sys2Proof.Config
end

