-- ==== Sys2Proof/Machine/State.lean ====
section
/-! DEFINITION. The architectural state of P25RX (10_state.md rules R20 to R69), one structure per unit, its reset
values (rule R66), the output tokens (30_encoding.md rules R100 to R107), and the reasons a step could stop. -/

namespace Sys2Proof.Machine

/-- There is no fault: no operation is ever aborted and every operation is total on every input word and every state
(00_scope.md rule R12, 60_exceptions.md rule R240). Nothing raises one; having none is exact, neither safe nor
unsafe. -/
inductive Fault where
deriving DecidableEq, Repr

/-- Why a meaning could be refused. No event is ever refused (00_scope.md rule R12). -/
inductive Refusal where
  /-- An instruction that has no meaning yet: raised by exec's refused arms only, of which there are none. Safe. -/
  | notModelled (mnemonic : String)
deriving DecidableEq, Repr

/-- `FSTATE` (10_state.md rule R33); the code 3 is never taken. -/
inductive FState where
  | search
  | nid
  | payload
deriving DecidableEq, Repr

/-- The reason code of an END token (30_encoding.md rule R105). -/
inductive EndReason where
  | len
  | resync
  | los
  | flush
deriving DecidableEq, Repr

/-- An output token with its fields (30_encoding.md rules R101 to R106). -/
inductive Token where
  /-- SYM (rule R101). -/
  | sym (d : Dibit) (conf : BitVec 8)
  /-- LOS (rule R102). -/
  | los (cause : LosCause)
  /-- HDR (rule R103). -/
  | hdr (tstamp : BitVec 32) (nac : BitVec 12) (duid : BitVec 4) (cls : BitVec 3) (p : Bool) (nerr : BitVec 4)
      (syncq : BitVec 6)
  /-- PAY (rule R104). -/
  | pay (d : Dibit) (ss : Bool) (conf : BitVec 8) (pos : BitVec 12)
  /-- END (rule R105). -/
  | frameEnd (reason : EndReason) (pos : BitVec 12)
  /-- DECERR (rule R106). -/
  | decerr (nid : BitVec 64)
deriving DecidableEq, Repr

/-- A token as the output port delivers it: a 4-bit KIND and a 64-bit DATA (30_encoding.md rule R100). -/
structure OutWord where
  kind : BitVec 4
  data : BitVec 64
deriving DecidableEq, Repr

/-- The five sticky bits of STATUS[12:8] (10_state.md rules R42 and R47). -/
inductive Event where
  | los
  | decerr
  | frame
  | nosync
  | ctlerr
deriving DecidableEq, Repr

/-- The DEMOD datapath state (10_state.md rules R22 to R31). Signed elements are two's-complement patterns. -/
structure Demod where
  /-- `TSAMP` (rule R22). -/
  tsamp : BitVec 32
  /-- `ENERGY` (rule R23). -/
  energy : BitVec 32
  /-- `PHP` (rule R24). -/
  php : Phase
  /-- `PHV` (rule R24). -/
  phv : Bool
  /-- `FOFF`, signed (rule R25). -/
  foff : BitVec 24
  /-- `DL[0..47]`, each signed, `DL[0]` the newest (rule R26). -/
  dl : Vector (BitVec 18) 48
  /-- `TCNT` (rule R27). -/
  tcnt : BitVec 6
  /-- `SPREV`, signed (rule R28). -/
  sprev : BitVec 16
  /-- `SVALID` (rule R28). -/
  svalid : Bool
  /-- `TACC`, signed (rule R29). -/
  tacc : BitVec 26
  /-- `EYEAVG` (rule R30). -/
  eyeavg : BitVec 14
  /-- `LOCKED` (rule R31). -/
  locked : Bool
  /-- `ACQCNT` (rule R31). -/
  acqcnt : BitVec 10
deriving DecidableEq, Repr

/-- The FSYNC state (10_state.md rules R32 to R38). -/
structure Fsync where
  /-- `SR` (rule R32). -/
  sr : BitVec 48
  /-- `SRV` (rule R32). -/
  srv : BitVec 5
  /-- `FSTATE` (rule R33). -/
  fstate : FState
  /-- `POS` (rule R34). -/
  pos : BitVec 12
  /-- `NIDACC` (rule R35). -/
  nidacc : BitVec 64
  /-- `NIDN` (rule R35). -/
  nidn : BitVec 6
  /-- `SRCHCNT` (rule R36). -/
  srchcnt : BitVec 16
  /-- `SYNCQ` (rule R37). -/
  syncq : BitVec 6
  /-- `TSTAMP` (rule R37). -/
  tstamp : BitVec 32
  /-- `FLEN` (rule R38). -/
  flen : BitVec 12
deriving DecidableEq, Repr

/-- The NIDDEC state and the four event counters (10_state.md rules R39 and R40). -/
structure Nid where
  /-- `LASTNID` (rule R39). -/
  lastnid : BitVec 64
  /-- `DECERRCNT` (rule R40). -/
  decerrcnt : BitVec 32
  /-- `FRAMECNT` (rule R40). -/
  framecnt : BitVec 32
  /-- `LOSCNT` (rule R40). -/
  loscnt : BitVec 32
  /-- `SYNCCNT` (rule R40). -/
  synccnt : BitVec 32
deriving DecidableEq, Repr

/-- One entry of DUTAB (10_state.md rule R58). -/
structure DutEntry where
  /-- `CLASS`, bits 14:12. -/
  cls : BitVec 3
  /-- `LEN`, bits 11:0. -/
  len : BitVec 12
deriving DecidableEq, Repr

/-- The configuration registers (10_state.md rules R45 and R48 to R60). -/
structure Ctl where
  /-- `CTRL.EN` (rule R45). -/
  en : Bool
  /-- `CTRL.MODE`: false C4FM, true CQPSK (rule R45). -/
  mode : Bool
  /-- `CTRL.SYMTAP` (rule R45). -/
  symtap : Bool
  /-- `CTRL.HOLDOFF` (rule R45). -/
  holdoff : Bool
  /-- `CTRL.BYPASS` (rule R45). -/
  bypass : Bool
  /-- `IRQEN[12:8]` (rule R48). -/
  irqen : BitVec 5
  /-- `SPS.SPS` (rule R49). -/
  sps : BitVec 6
  /-- `SQTHR` (rule R50). -/
  sqthr : BitVec 32
  /-- `ENSHIFT` (rule R51). -/
  enshift : BitVec 4
  /-- `FOLIM` (rule R52). -/
  folim : BitVec 15
  /-- `FOSHIFT.ACQ` (rule R53). -/
  acq : BitVec 4
  /-- `FOSHIFT.TRK` (rule R53). -/
  trk : BitVec 4
  /-- `TTHR` (rule R54). -/
  tthr : BitVec 24
  /-- `TDIV.LTHR` (rule R55). -/
  lthr : BitVec 14
  /-- `TDIV.UTHR` (rule R55). -/
  uthr : BitVec 14
  /-- `ESHIFT` (rule R55). -/
  eshift : BitVec 4
  /-- `ACQSYMS` (rule R56). -/
  acqsyms : BitVec 10
  /-- `SYNCTHR.N` (rule R57). -/
  syncthr : BitVec 6
  /-- `SYNCPAT`, the registers SYNCPATH and SYNCPATL together (rule R57). -/
  syncpat : BitVec 48
  /-- `SRCHWIN` (rule R59). -/
  srchwin : BitVec 16
  /-- `NIDCFG.NIDT` (rule R60). -/
  nidt : BitVec 4
  /-- `DUTAB0` to `DUTAB15` (rule R58). -/
  dutab : Vector DutEntry 16
deriving DecidableEq, Repr

/-- The ports as plain data: the MODEL's own fields (00_scope.md rules R11, R12 and R16; log entries 1 and 2). -/
structure Ports where
  /-- The events of the event script not yet taken, oldest first. -/
  script : List InEvent
  /-- The output trace: the tokens delivered so far, oldest first. -/
  trace : List OutWord
  /-- The words CSRR has returned so far, oldest first. -/
  rdata : List (BitVec 32)
deriving DecidableEq, Repr

/-- The whole state: the four units, the sticky bits, and the ports. -/
structure State where
  demod : Demod
  fsync : Fsync
  nid : Nid
  /-- STATUS[12:8]; bit `i` of the field is STATUS bit `i + 8`. -/
  evt : BitVec 5
  ctl : Ctl
  io : Ports
deriving DecidableEq, Repr

/-! Reset values (10_state.md rules R58 and R66, 70_reset_and_hazards.md rule R270). -/

/-- The DEMOD column "reset" of rule R66. -/
def Demod.reset : Demod :=
  { tsamp := 0#32, energy := 0#32, php := 0#16, phv := false, foff := 0#24, dl := Vector.replicate 48 0#18,
    tcnt := 10#6, sprev := 0#16, svalid := false, tacc := 0#26, eyeavg := 8191#14, locked := false,
    acqcnt := 0#10 }

/-- The FSYNC column "reset" of rule R66. -/
def Fsync.reset : Fsync :=
  { sr := 0#48, srv := 0#5, fstate := .search, pos := 0#12, nidacc := 0#64, nidn := 0#6, srchcnt := 0#16,
    syncq := 0#6, tstamp := 0#32, flen := 0#12 }

/-- The NIDDEC state after reset (rule R66). -/
def Nid.reset : Nid :=
  { lastnid := 0#64, decerrcnt := 0#32, framecnt := 0#32, loscnt := 0#32, synccnt := 0#32 }

/-- The reset column of DUTAB (rule R58): all entries 0 but those of DUID 0, 3, 5, 7, 10 and 15. -/
def Ctl.resetDutab : Vector DutEntry 16 :=
  #v[⟨1#3, 396#12⟩, ⟨0#3, 0#12⟩, ⟨0#3, 0#12⟩, ⟨5#3, 72#12⟩,
     ⟨0#3, 0#12⟩, ⟨3#3, 864#12⟩, ⟨0#3, 0#12⟩, ⟨2#3, 360#12⟩,
     ⟨0#3, 0#12⟩, ⟨0#3, 0#12⟩, ⟨4#3, 864#12⟩, ⟨0#3, 0#12⟩,
     ⟨0#3, 0#12⟩, ⟨0#3, 0#12⟩, ⟨0#3, 0#12⟩, ⟨5#3, 216#12⟩]

/-- The configuration registers after reset (the reset column of rule R43). -/
def Ctl.reset : Ctl :=
  { en := false, mode := false, symtap := false, holdoff := false, bypass := false, irqen := 0#5,
    sps := 10#6, sqthr := 65536#32, enshift := 6#4, folim := 3413#15, acq := 9#4, trk := 8#4,
    tthr := 32768#24, lthr := 3072#14, uthr := 3584#14, eshift := 6#4, acqsyms := 64#10, syncthr := 4#6,
    syncpat := 0x5575F5FF77FF#48, srchwin := 1728#16, nidt := 11#4, dutab := Ctl.resetDutab }

/-- No event pending, nothing delivered (rule R270: the output trace of a run starts empty). -/
def Ports.empty : Ports := { script := [], trace := [], rdata := [] }

/-- The machine right after reset (rules R66 and R270). -/
def State.reset : State :=
  { demod := Demod.reset, fsync := Fsync.reset, nid := Nid.reset, evt := 0#5, ctl := Ctl.reset,
    io := Ports.empty }

end Sys2Proof.Machine
end

