-- ==== Sys2Proof/Machine/Operands.lean ====
section
/-! DEFINITION. The arithmetic the rules use (00_scope.md rules R14 and R18), the phase, slicer and code computations
of DEMOD and NIDDEC, the register numbers of the control port, and the encoding of tokens. No definition here reads
or writes State. -/

namespace Sys2Proof.Machine

/-! ### Notation primitives (00_scope.md rules R14 and R18) -/

/-- `floor_shr(v, k)`: the floor of `v / 2^k`. -/
def floorShr (v : Int) (k : Nat) : Int := v / (2 ^ k : Nat)

/-- `clamp(v, lo, hi)`. -/
def clamp (v lo hi : Int) : Int := min (max v lo) hi

/-- `wrap16s(v)`: `v` mod 65536 read as a signed 16-bit integer. -/
def wrap16s (v : Int) : Int := (BitVec.ofInt 16 v).toInt

/-- `sat16(v)`. -/
def sat16 (v : Int) : Int := clamp v (-32768) 32767

/-- `popcount(v)`: the number of 1 bits. -/
def popcount {w : Nat} (v : BitVec w) : Nat := (List.range w).countP fun i => v.getLsbD i

/-- `bitlen(v)` (rule R18): the position of the highest 1 bit plus one, 0 for 0. -/
def bitlen (v : Nat) : Nat := if v = 0 then 0 else Nat.log2 v + 1

/-- At most `fuel` rounds of the reduction of rule R18. -/
def pmodRounds (g : Nat) : Nat → Nat → Nat
  | 0, a => a
  | fuel + 1, a => if bitlen g ≤ bitlen a then pmodRounds g fuel (a ^^^ (g <<< (bitlen a - bitlen g))) else a

/-- `pmod(a, g)` (rule R18); each round shortens `a`, so `bitlen a` rounds are enough. -/
def pmod (a g : Nat) : Nat := pmodRounds g (bitlen a) a

/-! ### DEMOD computations (40_demodulator.md) -/

/-- The sample power `I*I + Q*Q` (rule R122). -/
def power (i q : Component) : Int := i.toInt * i.toInt + q.toInt * q.toInt

/-- A first-order average with shift `k`: `old + floor_shr(new - old, k)` (rules R123, R128, R137). -/
def average (old new : Int) (k : Nat) : Int := old + floorShr (new - old) k

/-- The CORDIC iterations `k, k+1, …` of rule R124 over a list of arctangents; the three assignments of one iteration
use the values from before it. -/
def cordic : List Int → Nat → Int → Int → Int → Int
  | [], _, _, _, z => z
  | t :: ts, k, x, y, z =>
    if 0 ≤ y then cordic ts (k + 1) (x + floorShr y k) (y - floorShr x k) (z + t)
    else cordic ts (k + 1) (x - floorShr y k) (y + floorShr x k) (z - t)

/-- `Arg16(I, Q)` (rule R124). -/
def arg16 (i q : Component) : Phase :=
  let x := i.toInt
  let y := q.toInt
  if x = 0 ∧ y = 0 then 0#16
  else
    let z :=
      if x < 0 then cordic Config.atan 0 (-x * 4096) (-y * 4096) 8388608
      else cordic Config.atan 0 (x * 4096) (y * 4096) 0
    BitVec.ofInt 16 (floorShr (z + 128) 8)

/-- The phase difference `f` (rule R126): 0 for the first demodulated sample, else wrapped. -/
def phaseAdvance (valid : Bool) (prev phi : Phase) : Int :=
  if valid then wrap16s ((phi.toNat : Int) - prev.toNat) else 0

/-- The bound of FOFF, `FOLIM * 256` (rule R120). -/
def offsetLimit (folim : BitVec 15) : Int := folim.toNat * 256

/-- FOFF in whole BAM16, halves upward: `floor_shr(FOFF + 128, 8)` (rule R129). -/
def roundedOffset (foff : BitVec 24) : Int := floorShr (foff.toInt + 128) 8

/-- The coarse estimate (rule R128). -/
def coarseOffset (foff : BitVec 24) (f : Int) (acq : BitVec 4) (folim : BitVec 15) : BitVec 24 :=
  BitVec.ofInt 24 (clamp (average foff.toInt (f * 256) acq.toNat) (-offsetLimit folim) (offsetLimit folim))

/-- The fine update (rule R134). -/
def fineOffset (foff : BitVec 24) (err : Int) (trk : BitVec 4) (folim : BitVec 15) : BitVec 24 :=
  BitVec.ofInt 24 (clamp (foff.toInt + floorShr (err * 256) trk.toNat) (-offsetLimit folim) (offsetLimit folim))

/-- The delay line after a shift (rule R129): `fc` enters as `DL[0]`, the entry that was `DL[47]` is discarded. -/
def shiftDelay (fc : Int) (dl : Vector (BitVec 18) 48) : Vector (BitVec 18) 48 :=
  ⟨(BitVec.ofInt 18 fc :: dl.toList.take 47).toArray, by simp⟩

/-- The sum of the `n` delay-line entries from index `start` on (rule R131). -/
def windowSum (dl : Vector (BitVec 18) 48) (start n : Nat) : Int :=
  (((dl.toList.drop start).take n).map BitVec.toInt).sum

/-- A window sum as a soft value: saturated in C4FM, wrapped in CQPSK (rule R131). -/
def narrowSum (mode : Bool) (v : Int) : Int := if mode then wrap16s v else sat16 v

/-- The four symbol levels (30_encoding.md rule R97). -/
inductive Level where
  | plus3
  | plus1
  | minus1
  | minus3
deriving DecidableEq, Repr

/-- The number of a level. -/
def levelValue : Level → Int
  | .plus3 => 3
  | .plus1 => 1
  | .minus1 => -1
  | .minus3 => -3

/-- `dibit(a)` (rules R97 and R142). -/
def levelDibit : Level → Dibit
  | .plus3 => 1#2
  | .plus1 => 0#2
  | .minus1 => 2#2
  | .minus3 => 3#2

/-- The slicer (rule R132); a soft value on a threshold goes to the upper level. -/
def slice (sv : Int) : Level :=
  if 16384 ≤ sv then .plus3 else if 0 ≤ sv then .plus1 else if -16384 ≤ sv then .minus1 else .minus3

/-- The slicer error (rule R133). -/
def slicerError (sv : Int) : Int := sv - levelValue (slice sv) * Config.lvl

/-- The confidence of a slicer error (rule R133). -/
def confidence (err : Int) : BitVec 8 := BitVec.ofInt 8 (255 - min 255 (floorShr |err| 5))

/-- The timing error (rule R135). -/
def timingError (valid : Bool) (sprev : BitVec 16) (sv mv : Int) : Int :=
  if valid then floorShr ((sv - sprev.toInt) * (2 * mv - sv - sprev.toInt)) 16 else 0

/-- The adjustment of the symbol period and the accumulator after it (rule R136), from the accumulator with the new
timing error already added. -/
def timingAdjust (acc : Int) (tthr : BitVec 24) : Int × Int :=
  if (tthr.toNat : Int) < acc then (-1, 0) else if acc < -(tthr.toNat : Int) then (1, 0) else (0, acc)

/-! ### The NID code (42_nid_decoder.md) -/

/-- `enc(m)` (rule R192). -/
def enc (m : BitVec 16) : CodeWord :=
  BitVec.ofNat 63 ((m.toNat <<< 47) ^^^ pmod (m.toNat <<< 47) Config.gpoly)

/-- The first of the `2^k` messages that begin with the bits of `pre` and satisfy `p`, least first. -/
def findMessage (p : BitVec 16 → Bool) : Nat → Nat → Option (BitVec 16)
  | 0, pre => if p (BitVec.ofNat 16 pre) then some (BitVec.ofNat 16 pre) else none
  | k + 1, pre =>
    match findMessage p k (2 * pre) with
    | some m => some m
    | none => findMessage p k (2 * pre + 1)

/-- The codeword within Hamming distance `t` of `r`, if there is one (rule R194): a search over the 65536 codewords.
For `t` at most 11 there is at most one (rule R193). -/
def nearest (r : CodeWord) (t : Nat) : Option CodeWord :=
  (findMessage (fun m => decide (popcount (r ^^^ enc m) ≤ t)) 16 0).map enc

/-- `r = NIDACC[63:1]` (rule R191). -/
def nidCode (nid : BitVec 64) : CodeWord := nid.extractLsb' 1 63

/-- `P = NIDACC[0]` (rule R191). -/
def nidParity (nid : BitVec 64) : Bool := nid.getLsbD 0

/-- `NAC = c[62:51]` (rule R195). -/
def nacOf (c : CodeWord) : BitVec 12 := c.extractLsb' 51 12

/-- `DUID = c[50:47]` (rule R195). -/
def duidOf (c : CodeWord) : BitVec 4 := c.extractLsb' 47 4

/-! ### Register numbers (10_state.md rule R43) -/

/-- The registers of the control port. -/
inductive Csr where
  | id | ctrl | cmd | status | irqen | sps | sqthr | enshift | folim | foshift | tthr | tdiv | acqsyms
  | syncthr | syncpatl | syncpath | srchwin | nidcfg | decerrcnt | framecnt | loscnt | synccnt | tsamp
  | foff | energy | symin | lastnidl | lastnidh | eyeavg | fpos | eshift
  | dutab (d : BitVec 4)
deriving DecidableEq, Repr

/-- The register at each of the numbers 0x00 to 0x1E, in the order of the map of rule R43. -/
def fixedCsrs : List Csr :=
  [.id, .ctrl, .cmd, .status, .irqen, .sps, .sqthr, .enshift, .folim, .foshift, .tthr, .tdiv, .acqsyms,
   .syncthr, .syncpatl, .syncpath, .srchwin, .nidcfg, .decerrcnt, .framecnt, .loscnt, .synccnt, .tsamp,
   .foff, .energy, .symin, .lastnidl, .lastnidh, .eyeavg, .fpos, .eshift]

/-- The register with number `a`; none for an unmapped number, 0x1F and 0x30 to 0xFF (rule R74). -/
def csrOf (a : RegNum) : Option Csr :=
  if a.extractLsb' 4 4 = 2#4 then some (.dutab (a.extractLsb' 0 4)) else fixedCsrs[a.toNat]?

/-! ### Token encoding (30_encoding.md rules R100 to R106) -/

/-- The CAUSE code (rule R102). -/
def causeCode : LosCause → BitVec 4
  | .energy => 1#4
  | .timing => 2#4
  | .injected => 3#4

/-- The REASON code (rule R105). -/
def reasonCode : EndReason → BitVec 2
  | .len => 0#2
  | .resync => 1#2
  | .los => 2#2
  | .flush => 3#2

/-- The KIND of a token (rule R100). -/
def tokenKind : Token → BitVec 4
  | .sym .. => 1#4
  | .los .. => 2#4
  | .hdr .. => 3#4
  | .pay .. => 4#4
  | .frameEnd .. => 5#4
  | .decerr .. => 6#4

/-- The DATA of a token: its fields at the positions of rules R101 to R106, all other bits 0. -/
def tokenData : Token → BitVec 64
  | .sym d conf => (conf ++ 0#6 ++ d).setWidth 64
  | .los cause => (causeCode cause).setWidth 64
  | .hdr tstamp nac duid cls p nerr syncq =>
    (tstamp ++ nac ++ duid ++ cls ++ BitVec.ofBool p ++ nerr ++ 0#2 ++ syncq).setWidth 64
  | .pay d ss conf pos => (pos ++ conf ++ 0#5 ++ BitVec.ofBool ss ++ d).setWidth 64
  | .frameEnd reason pos => (pos ++ 0#14 ++ reasonCode reason).setWidth 64
  | .decerr nid => nid

/-- A token as the port delivers it (rule R100). -/
def tokenWord (t : Token) : OutWord := ⟨tokenKind t, tokenData t⟩

/-- The code of FSTATE in STATUS[3:2] (10_state.md rule R33). -/
def fstateCode : FState → BitVec 2
  | .search => 0#2
  | .nid => 1#2
  | .payload => 2#2

/-- Is `pos` the index of a status symbol (30_encoding.md rule R111)? -/
def isStatusPos (pos : BitVec 12) : Bool := pos.toNat % 36 == 35

end Sys2Proof.Machine
end

