-- ==== Sys2Proof/Machine/Flags.lean ====
section
/-! DEFINITION. The sticky event bits STATUS[12:8], their setting and clearing, and the irq line (10_state.md rules
R42, R47 and R65, 43_control_port.md rules R224 and R225). There are no condition codes (rule R42). -/

namespace Sys2Proof.Machine

/-- The place of a sticky bit in STATUS[12:8] (rule R47). -/
def eventMask : Event → BitVec 5
  | .los => 0b00001#5
  | .decerr => 0b00010#5
  | .frame => 0b00100#5
  | .nosync => 0b01000#5
  | .ctlerr => 0b10000#5

/-- Set one sticky bit. -/
def setEvent (e : Event) (s : State) : State := { s with evt := s.evt ||| eventMask e }

/-- Write 1 to clear: exactly the bits set in `clr` become 0 (rule R224). -/
def clearEvents (clr : BitVec 5) (s : State) : State := { s with evt := s.evt &&& ~~~clr }

/-- Is a sticky bit set? -/
def hasEvent (e : Event) (s : State) : Bool := (s.evt &&& eventMask e) != 0#5

/-- The irq level (rule R65): some sticky bit is pending and enabled. -/
def irq (s : State) : Bool := (s.evt &&& s.ctl.irqen) != 0#5

/-- `ENERGY >= SQTHR`: the squelch comparison `sig` (40_demodulator.md rule R127) and STATUS.SIGPRES (rule R47). -/
def sigPresent (s : State) : Bool := s.ctl.sqthr.toNat ≤ s.demod.energy.toNat

end Sys2Proof.Machine
end

