-- ==== Sys2Proof/Machine/Ops.lean ====
section
/-! DEFINITION. The named operations several meanings share: emitting a token, reporting an event condition (what
takes the place of taking an exception, 60_exceptions.md rules R240 and R241; there is no return from one, rule R251),
control errors, the three initialisations, and taking the next event of the script. -/

namespace Sys2Proof.Machine

/-- `emit`: append one token to the output trace (30_encoding.md rule R100). -/
def emit (t : Token) (s : State) : State :=
  { s with io := { s.io with trace := s.io.trace ++ [tokenWord t] } }

/-- The event conditions that set a sticky bit (60_exceptions.md rule R241). -/
inductive Condition where
  | lossOfSignal
  | nidRejected
  | nidAccepted
  | windowExpired
  | controlError
deriving DecidableEq, Repr

/-- The sticky bit of a condition (rule R241). -/
def conditionEvent : Condition → Event
  | .lossOfSignal => .los
  | .nidRejected => .decerr
  | .nidAccepted => .frame
  | .windowExpired => .nosync
  | .controlError => .ctlerr

/-- The counter of a condition goes up by one modulo 2^32 (rule R241; 10_state.md rule R40). -/
def countCondition : Condition → Nid → Nid
  | .lossOfSignal, n => { n with loscnt := n.loscnt + 1 }
  | .nidRejected, n => { n with decerrcnt := n.decerrcnt + 1 }
  | .nidAccepted, n => { n with framecnt := n.framecnt + 1 }
  | .windowExpired, n => n
  | .controlError, n => n

/-- Report an event condition: its counter, then its sticky bit. Nothing is saved, no mode changes and the operation
goes on (60_exceptions.md rules R240 and R251). Its token, where it has one, is emitted by the rule that detects it. -/
def report (c : Condition) (s : State) : State :=
  setEvent (conditionEvent c) { s with nid := countCondition c s.nid }

/-- A control error (43_control_port.md rule R218): CTLERR_EVT is set and nothing else changes. -/
def controlError (s : State) : State := report .controlError s

/-- Close the frame being forwarded, if there is one: `if FSTATE = 2: emit END(reason, POS)`. -/
def closeFrame (reason : EndReason) (s : State) : State :=
  match s.fsync.fstate with
  | .payload => emit (.frameEnd reason s.fsync.pos) s
  | .search | .nid => s

/-- The reset column of 10_state.md rule R66 for every state element. The ports are the environment's: events still to
come stay to come and tokens already delivered are not recalled (70_reset_and_hazards.md rule R295). -/
def resetBlock (s : State) : State := { State.reset with io := s.io }

/-- FLUSH (43_control_port.md rule R221): close an open frame, then the FLUSH column of 10_state.md rule R66. -/
def flushBlock (s : State) : State :=
  let s1 := closeFrame .flush s
  { s1 with
    demod := { Demod.reset with tsamp := s1.demod.tsamp, tcnt := s1.ctl.sps }
    fsync := Fsync.reset }

/-- CLRCNT (43_control_port.md rule R222). -/
def clearCounters (s : State) : State :=
  { s with nid := { s.nid with decerrcnt := 0#32, framecnt := 0#32, loscnt := 0#32, synccnt := 0#32 } }

/-- CSRR's returned word goes out on the control port. -/
def returnWord (v : BitVec 32) (s : State) : State :=
  { s with io := { s.io with rdata := s.io.rdata ++ [v] } }

/-- Take the next event of the script and decode it (30_encoding.md rule R93); none when no event is pending. -/
def fetch (s : State) : Option (Instr × State) :=
  match s.io.script with
  | [] => none
  | ev :: rest => some (decode ev, { s with io := { s.io with script := rest } })

/-- Present one event as the next of the script. -/
def present (ev : InEvent) (s : State) : State :=
  { s with io := { s.io with script := ev :: s.io.script } }

end Sys2Proof.Machine
end

