-- ==== Sys2Proof/Machine/Nid.lean ====
section
/-! DEFINITION. NIDDEC, the header decoder (42_nid_decoder.md). -/

namespace Sys2Proof.Machine

/-- The DUTAB entry of a DUID (rule R200). -/
def dutEntry (duid : BitVec 4) (ctl : Ctl) : DutEntry := ctl.dutab[duid.toNat]'duid.isLt

/-- FSTATE to SEARCH with the search counter restarted (41_framesync.md rule R166). -/
def backToSearch (s : State) : State :=
  { s with fsync := { s.fsync with fstate := .search, srchcnt := 0#16 } }

/-- Delimiting (rule R201): no payload if the length is reached already, else forward the payload. -/
def openFrame (s : State) : State :=
  if s.fsync.flen.toNat ≤ s.fsync.pos.toNat then backToSearch (emit (.frameEnd .len s.fsync.pos) s)
  else { s with fsync := { s.fsync with fstate := .payload } }

/-- The HDR token of an accepted NID with corrected codeword `c` at distance `nerr` (rules R195, R196 and R198). -/
def headerToken (c : CodeWord) (nerr : Nat) (s : State) : Token :=
  .hdr s.fsync.tstamp (nacOf c) (duidOf c) (dutEntry (duidOf c) s.ctl).cls (nidParity s.fsync.nidacc)
    (BitVec.ofNat 4 nerr) s.fsync.syncq

/-- `FLEN <- LEN` (rules R198 and R200). -/
def latchLength (c : CodeWord) (s : State) : State :=
  { s with fsync := { s.fsync with flen := (dutEntry (duidOf c) s.ctl).len } }

/-- An accepted NID (rule R198): counted and flagged, announced, its length latched; then rule R201. -/
def acceptNid (c : CodeWord) (nerr : Nat) (s : State) : State :=
  openFrame (latchLength c (emit (headerToken c nerr s) (report .nidAccepted s)))

/-- A rejected NID (rule R199). -/
def rejectNid (s : State) : State :=
  backToSearch (emit (.decerr s.fsync.nidacc) (report .nidRejected s))

/-- `LASTNID <- NIDACC` (rule R197). -/
def latchNid (s : State) : State := { s with nid := { s.nid with lastnid := s.fsync.nidacc } }

/-- The sub-operation NIDDEC (rule R190). LASTNID is written first, in both outcomes (rule R197). -/
def nidDecode (s : State) : State :=
  let r := nidCode s.fsync.nidacc
  match nearest r s.ctl.nidt.toNat with
  | some c => acceptNid c (popcount (r ^^^ c)) (latchNid s)
  | none => rejectNid (latchNid s)

/-- NIDDEC (rules R190 and R207). -/
def execNiddec (s : State) : Host.Outcome State Fault Refusal := .next (nidDecode s)

end Sys2Proof.Machine
end

