-- ==== Sys2Proof/Machine/Framesync.lean ====
section
/-! DEFINITION. FSYNC: the sub-operations DIBIT and LOSMARK (41_framesync.md). -/

namespace Sys2Proof.Machine

/-- The window shifts by one dibit, in every state (rule R161). -/
def shiftWindow (d : Dibit) (s : State) : State :=
  { s with fsync := { s.fsync with
      sr := (s.fsync.sr ++ d).setWidth 48
      srv := BitVec.ofNat 5 (min 24 (s.fsync.srv.toNat + 1)) } }

/-- `dist` of rule R162: the Hamming distance in bits of the window from SYNCPAT. -/
def syncDistance (s : State) : Nat := popcount (s.fsync.sr ^^^ s.ctl.syncpat)

/-- The match test of rule R162, on the window just shifted. -/
def syncMatch (s : State) : Bool :=
  s.fsync.srv == 24#5 && decide (syncDistance s ≤ s.ctl.syncthr.toNat) &&
    !(s.fsync.fstate == .payload && s.ctl.holdoff)

/-- `SYNCCNT <- add32(SYNCCNT, 1)` (rule R164). -/
def countSync (s : State) : State := { s with nid := { s.nid with synccnt := s.nid.synccnt + 1 } }

/-- The FSYNC state of a new candidate whose sync matched at distance `dist` (rule R164). -/
def beginNid (dist : Nat) (s : State) : State :=
  { s with fsync := { s.fsync with
      syncq := BitVec.ofNat 6 (48 - dist), tstamp := s.demod.tsamp, pos := 24#12, nidacc := 0#64
      nidn := 0#6, fstate := .nid, srchcnt := 0#16 } }

/-- A match (rule R164): an open frame is closed with REASON 1, then a new candidate starts. -/
def startCandidate (dist : Nat) (s : State) : State := beginNid dist (countSync (closeFrame .resync s))

/-- SEARCH without a match (rules R165 and R167): the search window counts, and its expiry is only reported. -/
def searchDibit (s : State) : State :=
  if s.ctl.srchwin = 0#16 then s
  else if s.ctl.srchwin.toNat ≤ s.fsync.srchcnt.toNat + 1 then
    report .windowExpired { s with fsync := { s.fsync with srchcnt := 0#16 } }
  else { s with fsync := { s.fsync with srchcnt := s.fsync.srchcnt + 1 } }

/-- `POS <- POS + 1` (rule R170). -/
def advancePos (s : State) : State :=
  { s with fsync := { s.fsync with pos := s.fsync.pos + 1 } }

/-- `NIDACC <- {NIDACC[61:0], d}`, `NIDN <- NIDN + 1` (rule R168). -/
def collectDibit (d : Dibit) (s : State) : State :=
  { s with fsync := { s.fsync with nidacc := (s.fsync.nidacc ++ d).setWidth 64, nidn := s.fsync.nidn + 1 } }

/-- NID collection (rule R168): a status symbol is dropped; the 32nd NID dibit calls NIDDEC. -/
def nidDibit (d : Dibit) (s : State) : State :=
  if isStatusPos s.fsync.pos then advancePos s
  else
    let s1 := collectDibit d (advancePos s)
    if s1.fsync.nidn = 32#6 then nidDecode s1 else s1

/-- Payload forwarding (rule R169). -/
def payloadDibit (d : Dibit) (conf : BitVec 8) (s : State) : State :=
  let s1 := advancePos (emit (.pay d (isStatusPos s.fsync.pos) conf s.fsync.pos) s)
  if s1.fsync.flen.toNat ≤ s1.fsync.pos.toNat then backToSearch (emit (.frameEnd .len s1.fsync.pos) s1) else s1

/-- What a dibit that completes no match does, by FSTATE (rule R160). -/
def unmatchedDibit (d : Dibit) (conf : BitVec 8) (s : State) : State :=
  match s.fsync.fstate with
  | .search => searchDibit s
  | .nid => nidDibit d s
  | .payload => payloadDibit d conf s

/-- The sub-operation DIBIT (rule R160); a match has priority over everything else. -/
def takeDibit (d : Dibit) (conf : BitVec 8) (s : State) : State :=
  let s1 := shiftWindow d s
  if syncMatch s1 then startCandidate (syncDistance s1) s1 else unmatchedDibit d conf s1

/-- `FSTATE <- 0 ; SR <- 0 ; SRV <- 0 ; SRCHCNT <- 0` (rule R171). -/
def clearWindow (s : State) : State :=
  { s with fsync := { s.fsync with fstate := .search, sr := 0#48, srv := 0#5, srchcnt := 0#16 } }

/-- The sub-operation LOSMARK (rule R171). -/
def losMark (cause : LosCause) (s : State) : State :=
  emit (.los cause) (clearWindow (closeFrame .los (report .lossOfSignal s)))

/-- DIBIT (rules R160 and R178). -/
def execDibit (d : Dibit) (conf : BitVec 8) (s : State) : Host.Outcome State Fault Refusal :=
  .next (takeDibit d conf s)

/-- LOSMARK (rules R171 and R179). -/
def execLosmark (cause : LosCause) (s : State) : Host.Outcome State Fault Refusal :=
  .next (losMark cause s)

end Sys2Proof.Machine
end

