-- ==== Sys2Proof/Machine/Control.lean ====
section
/-! DEFINITION. CTL: the control-port operations CSRR and CSRW and the commands (43_control_port.md), and RST
(70_reset_and_hazards.md rule R270). -/

namespace Sys2Proof.Machine

/-- The CTRL register as read: BYPASS, HOLDOFF, SYMTAP, MODE, EN in bits 4 down to 0 (rule R216). -/
def ctrlWord (c : Ctl) : BitVec 32 :=
  (BitVec.ofBool c.bypass ++ BitVec.ofBool c.holdoff ++ BitVec.ofBool c.symtap ++ BitVec.ofBool c.mode ++
    BitVec.ofBool c.en).setWidth 32

/-- The STATUS register as read: the sticky bits in 12:8, FSTATE in 3:2, SIGPRES in 1, LOCKED in 0 (rule R216). -/
def statusRead (s : State) : BitVec 32 :=
  (s.evt ++ 0#4 ++ fstateCode s.fsync.fstate ++ BitVec.ofBool (sigPresent s) ++
    BitVec.ofBool s.demod.locked).setWidth 32

/-- `CsrRead` of a mapped register (rule R216); every bit not named there reads 0. -/
def readCsr (r : Csr) (s : State) : BitVec 32 :=
  match r with
  | .id => Config.idValue
  | .ctrl => ctrlWord s.ctl
  | .cmd => 0#32
  | .status => statusRead s
  | .irqen => (s.ctl.irqen ++ 0#8).setWidth 32
  | .sps => s.ctl.sps.setWidth 32
  | .sqthr => s.ctl.sqthr
  | .enshift => s.ctl.enshift.setWidth 32
  | .folim => s.ctl.folim.setWidth 32
  | .foshift => (s.ctl.acq ++ s.ctl.trk).setWidth 32
  | .tthr => s.ctl.tthr.setWidth 32
  | .tdiv => (s.ctl.uthr ++ 0#2 ++ s.ctl.lthr).setWidth 32
  | .acqsyms => s.ctl.acqsyms.setWidth 32
  | .syncthr => s.ctl.syncthr.setWidth 32
  | .syncpatl => s.ctl.syncpat.extractLsb' 0 32
  | .syncpath => (s.ctl.syncpat.extractLsb' 32 16).setWidth 32
  | .srchwin => s.ctl.srchwin.setWidth 32
  | .nidcfg => s.ctl.nidt.setWidth 32
  | .decerrcnt => s.nid.decerrcnt
  | .framecnt => s.nid.framecnt
  | .loscnt => s.nid.loscnt
  | .synccnt => s.nid.synccnt
  | .tsamp => s.demod.tsamp
  | .foff => s.demod.foff.signExtend 32
  | .energy => s.demod.energy
  | .symin => 0#32
  | .lastnidl => s.nid.lastnid.extractLsb' 0 32
  | .lastnidh => s.nid.lastnid.extractLsb' 32 32
  | .eyeavg => s.demod.eyeavg.setWidth 32
  | .fpos => (s.fsync.syncq ++ 0#4 ++ s.fsync.pos).setWidth 32
  | .eshift => s.ctl.eshift.setWidth 32
  | .dutab d => ((dutEntry d s.ctl).cls ++ (dutEntry d s.ctl).len).setWidth 32

/-- A write of CMD (rule R219): SRST alone, or FLUSH and then CLRCNT. -/
def writeCmd (v : Word32) (s : State) : State :=
  if v.getLsbD 31 then resetBlock s
  else
    let s1 := if v.getLsbD 0 then flushBlock s else s
    if v.getLsbD 1 then clearCounters s1 else s1

/-- `SYM(D, CONF)` (rule R223): a control error without BYPASS, else DIBIT. -/
def injectDibit (d : Dibit) (conf : BitVec 8) (s : State) : State :=
  if s.ctl.bypass then takeDibit d conf s else controlError s

/-- `LOSINJ` (rule R223): a control error without BYPASS, else LOSMARK with cause 3. -/
def injectMarker (s : State) : State :=
  if s.ctl.bypass then losMark .injected s else controlError s

/-- A write of SYMIN (rules R95 and R223). -/
def writeSymin (v : Word32) (s : State) : State :=
  if v.getLsbD 8 then injectMarker s else injectDibit (v.extractLsb' 0 2) (v.extractLsb' 16 8) s

/-- A legal value of SPS: even, 4 to 32 (10_state.md rule R49). -/
def legalSps (v : BitVec 6) : Bool := v.toNat % 2 == 0 && decide (4 ≤ v.toNat) && decide (v.toNat ≤ 32)

/-- A legal value of NIDT: 0 to 11 (10_state.md rule R60). -/
def legalNidt (v : BitVec 4) : Bool := decide (v.toNat ≤ Config.maxRadius)

/-- Write the fields of CTRL (rule R217). -/
def writeCtrl (v : Word32) (c : Ctl) : Ctl :=
  { c with en := v.getLsbD 0, mode := v.getLsbD 1, symtap := v.getLsbD 2, holdoff := v.getLsbD 3,
           bypass := v.getLsbD 4 }

/-- Write one entry of DUTAB (rule R217). -/
def writeDutab (d : BitVec 4) (v : Word32) (c : Ctl) : Ctl :=
  { c with dutab := c.dutab.set d.toNat ⟨v.extractLsb' 12 3, v.extractLsb' 0 12⟩ d.isLt }

/-- `CsrWrite` of a mapped register (rule R217). -/
def writeCsr (r : Csr) (v : Word32) (s : State) : State :=
  match r with
  | .ctrl => { s with ctl := writeCtrl v s.ctl }
  | .cmd => writeCmd v s
  | .status => clearEvents (v.extractLsb' 8 5) s
  | .irqen => { s with ctl := { s.ctl with irqen := v.extractLsb' 8 5 } }
  | .sps =>
    if legalSps (v.extractLsb' 0 6) then { s with ctl := { s.ctl with sps := v.extractLsb' 0 6 } }
    else controlError s
  | .sqthr => { s with ctl := { s.ctl with sqthr := v } }
  | .enshift => { s with ctl := { s.ctl with enshift := v.extractLsb' 0 4 } }
  | .folim => { s with ctl := { s.ctl with folim := v.extractLsb' 0 15 } }
  | .foshift => { s with ctl := { s.ctl with trk := v.extractLsb' 0 4, acq := v.extractLsb' 4 4 } }
  | .tthr => { s with ctl := { s.ctl with tthr := v.extractLsb' 0 24 } }
  | .tdiv => { s with ctl := { s.ctl with lthr := v.extractLsb' 0 14, uthr := v.extractLsb' 16 14 } }
  | .acqsyms => { s with ctl := { s.ctl with acqsyms := v.extractLsb' 0 10 } }
  | .syncthr => { s with ctl := { s.ctl with syncthr := v.extractLsb' 0 6 } }
  | .syncpatl => { s with ctl := { s.ctl with syncpat := s.ctl.syncpat.extractLsb' 32 16 ++ v } }
  | .syncpath => { s with ctl := { s.ctl with syncpat := v.extractLsb' 0 16 ++ s.ctl.syncpat.extractLsb' 0 32 } }
  | .srchwin => { s with ctl := { s.ctl with srchwin := v.extractLsb' 0 16 } }
  | .nidcfg =>
    if legalNidt (v.extractLsb' 0 4) then { s with ctl := { s.ctl with nidt := v.extractLsb' 0 4 } }
    else controlError s
  | .symin => writeSymin v s
  | .eshift => { s with ctl := { s.ctl with eshift := v.extractLsb' 0 4 } }
  | .dutab d => { s with ctl := writeDutab d v s.ctl }
  | .id | .decerrcnt | .framecnt | .loscnt | .synccnt | .tsamp | .foff | .energy | .lastnidl | .lastnidh
  | .eyeavg | .fpos => controlError s

/-- The whole read operation (rule R216): an unmapped number returns 0 and is a control error. -/
def readPort (a : RegNum) (s : State) : State :=
  match csrOf a with
  | some r => returnWord (readCsr r s) s
  | none => returnWord 0#32 (controlError s)

/-- The whole write operation (rule R217): an unmapped number is a control error. -/
def writePort (a : RegNum) (v : Word32) (s : State) : State :=
  match csrOf a with
  | some r => writeCsr r v s
  | none => controlError s

/-- RST (70_reset_and_hazards.md rules R270 and R295). -/
def execRst (s : State) : Host.Outcome State Fault Refusal := .next (resetBlock s)

/-- CSRR (rules R216 and R226). -/
def execCsrr (a : RegNum) (s : State) : Host.Outcome State Fault Refusal := .next (readPort a s)

/-- CSRW (rules R217 and R227). -/
def execCsrw (a : RegNum) (v : Word32) (s : State) : Host.Outcome State Fault Refusal :=
  .next (writePort a v s)

/-- SRST (rules R220 and R228). -/
def execSrst (s : State) : Host.Outcome State Fault Refusal := .next (resetBlock s)

/-- FLUSH, with CLRCNT after it where bit 1 of the CMD word is 1 (rules R219, R221 and R229). -/
def execFlush (thenClr : Bool) (s : State) : Host.Outcome State Fault Refusal :=
  .next (if thenClr then clearCounters (flushBlock s) else flushBlock s)

/-- CLRCNT (rules R222 and R230). -/
def execClrcnt (s : State) : Host.Outcome State Fault Refusal := .next (clearCounters s)

/-- A write of STATUS (rule R224). -/
def execStatusw1c (clr : BitVec 5) (s : State) : Host.Outcome State Fault Refusal :=
  .next (clearEvents clr s)

/-- SYM (rules R223 and R231). -/
def execSym (d : Dibit) (conf : BitVec 8) (s : State) : Host.Outcome State Fault Refusal :=
  .next (injectDibit d conf s)

/-- LOSINJ (rules R223 and R232). -/
def execLosinj (s : State) : Host.Outcome State Fault Refusal := .next (injectMarker s)

end Sys2Proof.Machine
end

