-- ==== Sys2Proof/Machine/Demodulator.lean ====
section
/-! DEFINITION. DEMOD: the operation SAMPLE and the sub-operations STROBE and UNLOCK (40_demodulator.md). -/

namespace Sys2Proof.Machine

/-- `TSAMP <- add32(TSAMP, 1)` (rule R121). -/
def countSample (s : State) : State :=
  { s with demod := { s.demod with tsamp := s.demod.tsamp + 1 } }

/-- Energy average of one sample (rule R123). -/
def updateEnergy (i q : Component) (s : State) : State :=
  { s with demod := { s.demod with
      energy := BitVec.ofInt 32 (average s.demod.energy.toNat (power i q) s.ctl.enshift.toNat) } }

/-- The phase of this sample becomes the previous one (rule R126). -/
def latchPhase (phi : Phase) (s : State) : State :=
  { s with demod := { s.demod with php := phi, phv := true } }

/-- The coarse frequency estimate, only with a signal and while unlocked (rule R128). -/
def coarseTrack (f : Int) (s : State) : State :=
  if sigPresent s && !s.demod.locked then
    { s with demod := { s.demod with foff := coarseOffset s.demod.foff f s.ctl.acq s.ctl.folim } }
  else s

/-- Correction and delay line (rule R129). -/
def pushDelay (f : Int) (s : State) : State :=
  { s with demod := { s.demod with dl := shiftDelay (f - roundedOffset s.demod.foff) s.demod.dl } }

/-- The front end of a demodulated sample, rules R122 to R129 in the order of rule R120. -/
def frontEnd (i q : Component) (s : State) : State :=
  let phi := arg16 i q
  let f := phaseAdvance s.demod.phv s.demod.php phi
  pushDelay f (coarseTrack f (latchPhase phi (updateEnergy i q s)))

/-- The timing loop of a strobe with soft value `sv` and mid value `mv` (rules R135 and R136). -/
def updateTiming (sv mv : Int) (s : State) : State :=
  let e := timingError s.demod.svalid s.demod.sprev sv mv
  let adj := timingAdjust (s.demod.tacc.toInt + e) s.ctl.tthr
  { s with demod := { s.demod with
      sprev := BitVec.ofInt 16 sv, svalid := true, tacc := BitVec.ofInt 26 adj.2
      tcnt := BitVec.ofInt 6 (s.ctl.sps.toNat + adj.1) } }

/-- The divergence measure (rule R137). -/
def updateEye (err : Int) (s : State) : State :=
  { s with demod := { s.demod with
      eyeavg := BitVec.ofInt 14 (average s.demod.eyeavg.toNat |err| s.ctl.eshift.toNat) } }

/-- The sub-operation UNLOCK (rule R139). -/
def loseLock (cause : LosCause) (s : State) : State :=
  losMark cause { s with demod := { s.demod with locked := false, acqcnt := 0#10 } }

/-- Fine frequency tracking (rule R134). -/
def fineTrack (err : Int) (s : State) : State :=
  { s with demod := { s.demod with foff := fineOffset s.demod.foff err s.ctl.trk s.ctl.folim } }

/-- Emission of a symbol (rule R141): the SYM token if tapped, then DIBIT. -/
def outputSymbol (d : Dibit) (conf : BitVec 8) (s : State) : State :=
  takeDibit d conf (if s.ctl.symtap then emit (.sym d conf) s else s)

/-- Lock supervision of a strobe while locked (rule R138); the first test that holds decides. -/
def supervise (sig : Bool) (a : Level) (err : Int) (s : State) : State :=
  if !sig then loseLock .energy s
  else if s.ctl.uthr.toNat < s.demod.eyeavg.toNat then loseLock .timing s
  else outputSymbol (levelDibit a) (confidence err) (fineTrack err s)

/-- ACQCNT after one more qualifying strobe (rule R140). -/
def countQualifying (n : BitVec 10) : BitVec 10 := BitVec.ofNat 10 (min 1023 (n.toNat + 1))

/-- Acquisition of a strobe while unlocked (rule R140). -/
def acquire (sig : Bool) (s : State) : State :=
  if sig && decide (s.demod.eyeavg.toNat ≤ s.ctl.lthr.toNat) then
    let n := countQualifying s.demod.acqcnt
    { s with demod := { s.demod with acqcnt := n, locked := decide (s.ctl.acqsyms.toNat ≤ n.toNat) } }
  else { s with demod := { s.demod with acqcnt := 0#10 } }

/-- The soft value `sv` of rule R131. -/
def softValue (s : State) : Int := narrowSum s.ctl.mode (windowSum s.demod.dl 0 s.ctl.sps.toNat)

/-- The mid value `mv` of rule R131. -/
def midValue (s : State) : Int :=
  narrowSum s.ctl.mode (windowSum s.demod.dl (s.ctl.sps.toNat / 2) s.ctl.sps.toNat)

/-- The sub-operation STROBE (rule R130). -/
def takeStrobe (sig : Bool) (s : State) : State :=
  let sv := softValue s
  let err := slicerError sv
  let s1 := updateEye err (updateTiming sv (midValue s) s)
  if s1.demod.locked then supervise sig (slice sv) err s1 else acquire sig s1

/-- The symbol clock (rule R125): count down, or take a strobe. -/
def symbolClock (s : State) : State :=
  if 1 < s.demod.tcnt.toNat then { s with demod := { s.demod with tcnt := s.demod.tcnt - 1 } }
  else takeStrobe (sigPresent s) s

/-- The operation SAMPLE (rule R120): counted always, demodulated only with EN = 1 and BYPASS = 0 (rule R121). -/
def takeSample (i q : Component) (s : State) : State :=
  let s1 := countSample s
  if s1.ctl.en && !s1.ctl.bypass then symbolClock (frontEnd i q s1) else s1

/-- SAMPLE (rules R120 and R148). -/
def execSample (i q : Component) (s : State) : Host.Outcome State Fault Refusal :=
  .next (takeSample i q s)

/-- STROBE (rules R130 and R149). -/
def execStrobe (sig : Bool) (s : State) : Host.Outcome State Fault Refusal :=
  .next (takeStrobe sig s)

/-- UNLOCK (rule R139). -/
def execUnlock (cause : LosCause) (s : State) : Host.Outcome State Fault Refusal :=
  .next (loseLock cause s)

end Sys2Proof.Machine
end

