-- ==== Sys2Proof/Machine/Dispatch.lean ====
section
/-! DEFINITION. exec: one arm per operation, each one direct call of its meaning. -/

namespace Sys2Proof.Machine

def exec (i : Instr) (s : State) : Host.Outcome State Fault Refusal :=
  match i with
  | .rst => Sys2Proof.Machine.execRst s
  | .sample x y => Sys2Proof.Machine.execSample x y s
  | .csrr a => Sys2Proof.Machine.execCsrr a s
  | .csrw a v => Sys2Proof.Machine.execCsrw a v s
  | .srst => Sys2Proof.Machine.execSrst s
  | .flush thenClr => Sys2Proof.Machine.execFlush thenClr s
  | .clrcnt => Sys2Proof.Machine.execClrcnt s
  | .statusw1c clr => Sys2Proof.Machine.execStatusw1c clr s
  | .sym d conf => Sys2Proof.Machine.execSym d conf s
  | .losinj => Sys2Proof.Machine.execLosinj s
  | .strobe sig => Sys2Proof.Machine.execStrobe sig s
  | .unlock cause => Sys2Proof.Machine.execUnlock cause s
  | .dibit d conf => Sys2Proof.Machine.execDibit d conf s
  | .losmark cause => Sys2Proof.Machine.execLosmark cause s
  | .niddec => Sys2Proof.Machine.execNiddec s

end Sys2Proof.Machine
end

