-- ==== Sys2Proof/Machine/Step.lean ====
section
/-! DEFINITION. One step: the next event of the script is taken, decoded and run (00_scope.md rule R12, 20_memory.md
rule R80). With no event pending the block does nothing (60_exceptions.md rule R246; log entry 1). -/

namespace Sys2Proof.Machine

/-- One step of the machine. -/
def step (s : State) : Host.Outcome State Fault Refusal :=
  match fetch s with
  | none => .next s
  | some (i, s1) => exec i s1

/-- `s` with the port word `w` presented as its next event (spec/opcode_table.json's numbering); unchanged where `w`
is no word of any port. -/
def State.withFetchWord (s : State) (nbits w : Nat) : State :=
  match parseWord nbits w with
  | .ok ev => present ev s
  | .error _ => s

end Sys2Proof.Machine
end

