-- ==== Sys2Proof/Safety.lean ====
section
/-! DEFINITION. What the statements speak of: the legal states (the ranges of 10_state.md rule R69 and the rules it
follows from), the tokens an operation emits, and the grammar of the output trace (30_encoding.md rule R108). -/

namespace Sys2Proof.Machine

/-- The ranges of the DEMOD state (10_state.md rules R23, R25, R27, R29, R30 and R69). -/
structure LegalDemod (d : Demod) : Prop where
  /-- ENERGY is 0 to 2^31 (rule R23). -/
  energy : d.energy.toNat ≤ 2147483648
  /-- `abs(FOFF) <= 8388352` always (rule R25). -/
  foff : |d.foff.toInt| ≤ 8388352
  /-- A corrected sample is in [-65535, 65534] (rule R69). -/
  delay : ∀ x ∈ d.dl.toList, -65535 ≤ x.toInt ∧ x.toInt ≤ 65534
  /-- TCNT is 1 to 33 (rule R27). -/
  tcnt : 1 ≤ d.tcnt.toNat ∧ d.tcnt.toNat ≤ 33
  /-- TACC is at most the largest TTHR in magnitude (rule R29). -/
  tacc : |d.tacc.toInt| ≤ 16777215
  /-- EYEAVG is 0 to 8192 (rule R30). -/
  eyeavg : d.eyeavg.toNat ≤ 8192

/-- The number of NID dibits collected when the next dibit has index `pos`: index 35 is a status symbol
(30_encoding.md rule R111). -/
def collectedAt (pos : Nat) : Nat := if pos ≤ 35 then pos - 24 else pos - 25

/-- The ranges of the FSYNC state (10_state.md rules R32, R35, R37; 41_framesync.md rules R166, R168 to R170). -/
structure LegalFsync (f : Fsync) : Prop where
  /-- SRV saturates at 24 (rule R32). -/
  srv : f.srv.toNat ≤ 24
  /-- NIDN is 0 to 32 (rule R35). -/
  nidn : f.nidn.toNat ≤ 32
  /-- SYNCQ is 0 to 48 (rule R37). -/
  syncq : f.syncq.toNat ≤ 48
  /-- In state NID the next index is 24 to 56 and fixes how many NID dibits are in (rule R168). -/
  nid : f.fstate = .nid → 24 ≤ f.pos.toNat ∧ f.pos.toNat ≤ 56 ∧ f.nidn.toNat = collectedAt f.pos.toNat
  /-- In state PAYLOAD the next index is a payload index of the data unit (rules R169 and R201). -/
  payload : f.fstate = .payload → 57 ≤ f.pos.toNat ∧ f.pos.toNat < f.flen.toNat
  /-- SRCHCNT counts in state SEARCH only (rule R166). -/
  srchcnt : f.fstate ≠ .search → f.srchcnt = 0#16

/-- The legal configurations: the two registers that refuse illegal values (10_state.md rules R49 and R60). -/
structure LegalCtl (c : Ctl) : Prop where
  sps : c.sps.toNat % 2 = 0 ∧ 4 ≤ c.sps.toNat ∧ c.sps.toNat ≤ 32
  nidt : c.nidt.toNat ≤ 11

/-- The states a run can be in as far as ranges go. -/
structure Legal (s : State) : Prop where
  demod : LegalDemod s.demod
  fsync : LegalFsync s.fsync
  ctl : LegalCtl s.ctl

/-- Going from `s` to `t` appends exactly the tokens `toks` to the output trace. -/
def Emits (s t : State) (toks : List Token) : Prop :=
  t.io.trace = s.io.trace ++ toks.map tokenWord

/-- The port word of token `t` has the KIND `kind` and the DATA `data`, as numbers (30_encoding.md rule R100). -/
def LaidOut (t : Token) (kind data : Nat) : Prop :=
  (tokenWord t).kind.toNat = kind ∧ (tokenWord t).data.toNat = data

/-- A control error and nothing else (43_control_port.md rule R218): STATUS[12] set. -/
def withControlError (s : State) : State := { s with evt := s.evt ||| 0b10000#5 }

/-- CSRR of register number `a` in state `s` returns the word with value `n` and changes nothing else. -/
def Returns (s : State) (a : RegNum) (n : Nat) : Prop :=
  ∃ v : BitVec 32, v.toNat = n ∧
    exec (.csrr a) s = .next { s with io := { s.io with rdata := s.io.rdata ++ [v] } }

/-- Is a token of the kind HDR? -/
def Token.isHdr : Token → Bool
  | .hdr .. => true
  | .sym .. | .los .. | .pay .. | .frameEnd .. | .decerr .. => false

/-- Is a token of the kind DECERR? -/
def Token.isDecerr : Token → Bool
  | .decerr .. => true
  | .sym .. | .los .. | .hdr .. | .pay .. | .frameEnd .. => false

/-- Is a token of the kind LOS? -/
def Token.isLos : Token → Bool
  | .los .. => true
  | .sym .. | .hdr .. | .pay .. | .frameEnd .. | .decerr .. => false

/-- Where the grammar of rule R108 stands: outside a frame, inside one whose next PAY or END has index `next`, or
right after an END with REASON 2, which a LOS token follows. -/
inductive Scan where
  | outside
  | inside (next : Nat)
  | marker
deriving DecidableEq, Repr

/-- One token of the grammar of rule R108; none where the grammar does not admit it. -/
def scanToken : Scan → Token → Option Scan
  | .outside, .sym .. => some .outside
  | .outside, .los _ => some .outside
  | .outside, .decerr _ => some .outside
  | .outside, .hdr .. => some (.inside 57)
  | .outside, .pay .. => none
  | .outside, .frameEnd .. => none
  | .inside n, .sym .. => some (.inside n)
  | .inside n, .pay _ _ _ pos => if pos.toNat = n then some (.inside (n + 1)) else none
  | .inside n, .frameEnd reason pos =>
    if pos.toNat = n then some (if reason = .los then .marker else .outside) else none
  | .inside _, .los _ => none
  | .inside _, .hdr .. => none
  | .inside _, .decerr _ => none
  | .marker, .los _ => some .outside
  | .marker, .sym .. => none
  | .marker, .hdr .. => none
  | .marker, .pay .. => none
  | .marker, .frameEnd .. => none
  | .marker, .decerr _ => none

/-- A sequence of tokens. -/
def scanTokens : Scan → List Token → Option Scan
  | sc, [] => some sc
  | sc, t :: ts =>
    match scanToken sc t with
    | some sc' => scanTokens sc' ts
    | none => none

/-- Where the grammar must stand in a state: inside a frame exactly while FSTATE is PAYLOAD. -/
def frameScan (s : State) : Scan :=
  match s.fsync.fstate with
  | .payload => .inside s.fsync.pos.toNat
  | .search | .nid => .outside

/-- The output trace so far matches the grammar of rule R108 and stands where FSTATE and POS say. -/
def WellFormedTrace (s : State) : Prop :=
  ∃ toks : List Token, s.io.trace = toks.map tokenWord ∧ scanTokens .outside toks = some (frameScan s)

/-- Run a list of operations one after the other, stopping at the first fault or refusal. -/
def execAll : List Instr → State → Host.Outcome State Fault Refusal
  | [], s => .next s
  | i :: is, s =>
    match exec i s with
    | .next t => execAll is t
    | .fault r => .fault r
    | .refused r => .refused r

/-- The window after one more dibit, `{SR[45:0], d}` (41_framesync.md rule R161). -/
def windowAfter (d : Dibit) (s : State) : BitVec 48 := s.fsync.sr.extractLsb' 0 46 ++ d

/-- The Hamming distance of that window from SYNCPAT (rule R162). -/
def distanceAfter (d : Dibit) (s : State) : Nat := popcount (windowAfter d s ^^^ s.ctl.syncpat)

/-- Does the dibit `d` complete a sync match in state `s` (rule R162)? The window is full, it lies within the
Hamming bound, and HOLDOFF does not suppress the match. -/
abbrev CompletesSync (d : Dibit) (s : State) : Prop :=
  24 ≤ s.fsync.srv.toNat + 1 ∧ distanceAfter d s ≤ s.ctl.syncthr.toNat ∧
    ¬(s.fsync.fstate = .payload ∧ s.ctl.holdoff = true)

/-- One iteration of the CORDIC loop (40_demodulator.md rule R124) on `(x, y, z)`, with `ATAN[k]` and `k`; the three
assignments use the values from before it. -/
def rotate : Int × Int × Int → Int × Nat → Int × Int × Int
  | (x, y, z), (atan, k) =>
    if 0 ≤ y then (x + floorShr y k, y - floorShr x k, z + atan)
    else (x - floorShr y k, y + floorShr x k, z - atan)

/-- `Arg16(I, Q)` as rule R124 writes it: sixteen iterations from the start of the half-plane, then rounding. -/
def phaseByRule (i q : Component) : Int :=
  let start : Int × Int × Int :=
    if i.toInt < 0 then (-i.toInt * 4096, -q.toInt * 4096, 8388608) else (i.toInt * 4096, q.toInt * 4096, 0)
  if i.toInt = 0 ∧ q.toInt = 0 then 0
  else floorShr ((Config.atan.zipIdx.foldl rotate start).2.2 + 128) 8 % 65536

/-- The phase difference `f` of a sample in state `s` (rule R126). -/
def differenceByRule (i q : Component) (s : State) : Int :=
  if s.demod.phv then wrap16s (phaseByRule i q - s.demod.php.toNat) else 0

/-- `FOFF` after the coarse update of rule R128 with the phase difference of that sample. -/
def coarseByRule (i q : Component) (s : State) : Int :=
  clamp (s.demod.foff.toInt +
      floorShr (differenceByRule i q s * 256 - s.demod.foff.toInt) s.ctl.acq.toNat)
    (-(s.ctl.folim.toNat * 256)) (s.ctl.folim.toNat * 256)

/-- What the front end of a demodulated sample does to DEMOD (rules R122 to R129), from `s` to `t`. -/
structure FrontEndBy (i q : Component) (s t : State) : Prop where
  /-- ENERGY (rules R122 and R123). -/
  energy : (t.demod.energy.toNat : Int) = s.demod.energy.toNat +
    floorShr (i.toInt * i.toInt + q.toInt * q.toInt - s.demod.energy.toNat) s.ctl.enshift.toNat
  /-- PHP (rules R124 and R126). -/
  php : (t.demod.php.toNat : Int) = phaseByRule i q
  /-- PHV (rule R126). -/
  phv : t.demod.phv = true
  /-- FOFF with a signal and without lock (rules R127 and R128). -/
  coarse : s.ctl.sqthr.toNat ≤ t.demod.energy.toNat → s.demod.locked = false →
    t.demod.foff.toInt = coarseByRule i q s
  /-- Otherwise FOFF is left alone (rule R128). -/
  keeps : t.demod.energy.toNat < s.ctl.sqthr.toNat ∨ s.demod.locked = true → t.demod.foff = s.demod.foff
  /-- The delay line shifts by one and takes the corrected difference (rule R129). -/
  delay : ∃ x : BitVec 18, t.demod.dl.toList = x :: s.demod.dl.toList.take 47 ∧
    x.toInt = differenceByRule i q s - floorShr (t.demod.foff.toInt + 128) 8

/-- The soft value `sv` of the strobe that state `s` would take (rule R131). -/
def softAfter (s : State) : Int :=
  let total := ((s.demod.dl.toList.take s.ctl.sps.toNat).map BitVec.toInt).sum
  if s.ctl.mode then wrap16s total else sat16 total

/-- The level of a soft value: the table of rule R132. -/
def levelByRule (sv : Int) : Int :=
  if 16384 ≤ sv then 3 else if 0 ≤ sv then 1 else if -16384 ≤ sv then -1 else -3

/-- The slicer error of that strobe (rule R133). -/
def errorAfter (s : State) : Int := softAfter s - levelByRule (softAfter s) * 8192

/-- EYEAVG after that strobe (rule R137). -/
def eyeAfter (s : State) : Int :=
  s.demod.eyeavg.toNat + floorShr (|errorAfter s| - s.demod.eyeavg.toNat) s.ctl.eshift.toNat

/-- The unmapped register numbers: 0x1F and 0x30 to 0xFF (10_state.md rule R43). -/
abbrev Unmapped (a : RegNum) : Prop := a.toNat = 0x1F ∨ 0x30 ≤ a.toNat

/-- The read-only registers: 0x00, 0x12 to 0x18, 0x1A to 0x1D (43_control_port.md rule R217). -/
abbrev ReadOnly (a : RegNum) : Prop :=
  a.toNat = 0 ∨ (0x12 ≤ a.toNat ∧ a.toNat ≤ 0x18) ∨ (0x1A ≤ a.toNat ∧ a.toNat ≤ 0x1D)

/-- The writes that are control errors: cases (b) to (f) of 43_control_port.md rule R218. -/
abbrev WriteError (a : RegNum) (v : Word32) (s : State) : Prop :=
  Unmapped a ∨ ReadOnly a ∨
  (a.toNat = 0x05 ∧ (v.toNat % 64 % 2 = 1 ∨ v.toNat % 64 < 4 ∨ 32 < v.toNat % 64)) ∨
  (a.toNat = 0x11 ∧ 11 < v.toNat % 16) ∨
  (a.toNat = 0x19 ∧ s.ctl.bypass = false)

/-- A list of dibits as one number, the first the most significant (20_memory.md rule R72). -/
def packDibits (ds : List Dibit) : Nat := ds.foldl (fun acc d => acc * 4 + d.toNat) 0

end Sys2Proof.Machine
end

