-- ==== Sys2Proof/Certificates/Slice0/Obligations.lean ====
section
/-! DEFINITION. The statements for the provers. Each docstring says which rules of spec/ it formalises. -/

open Sys2Proof Sys2Proof.Machine

/-- Decoding the encoding of a well-formed operation gives it back (30_encoding.md sections 1 and 2). -/
def Obligations.DecodeOfEncodeIsIdentity : Prop :=
  ∀ (i : Instr) (ev : InEvent), i.wellFormed = true → encode i = some ev → decode ev = i

/-- Every word of every port decodes to a well-formed operation that has an encoding (30_encoding.md section 2). -/
def Obligations.EveryEventDecodesToAWellFormedOperation : Prop :=
  ∀ ev : InEvent, (decode ev).wellFormed = true ∧ (decode ev).isEvent = true ∧
    ∃ ev', encode (decode ev) = some ev' ∧ decode ev' = decode ev

/-- The transaction and sample words written out in the spec decode to the operations they stand for
(95_test_vectors.md sections 2.B and 3). -/
def Obligations.WordsOfTheSpecDecode : Prop :=
  decode (.sampleWord 0x03E803E8#32) = .sample 1000#16 1000#16 ∧
  decode (.sampleWord 0xEC782EE0#32) = .sample 12000#16 (-5000#16) ∧
  decode (.transaction 0x10500000007#41) = .csrw 0x05#8 7#32 ∧
  decode (.transaction 0x01F00000000#41) = .csrr 0x1F#8 ∧
  decode (.transaction 0x10300001000#41) = .statusw1c 0b10000#5 ∧
  decode (.transaction 0x11900FF0001#41) = .sym 1#2 255#8 ∧
  decode (.transaction 0x11900000100#41) = .losinj ∧
  decode (.transaction 0x10200000003#41) = .flush true ∧
  decode (.transaction 0x10280000003#41) = .srst

/-- Two tokens with the same output word are the same token (30_encoding.md section 4). -/
def Obligations.TokenWordsAreDistinct : Prop :=
  ∀ t u : Token, tokenWord t = tokenWord u → t = u

/-- A step takes the next event of the script and runs the operation it decodes to (the model's choice, log
entries 1 and 5) (30_encoding.md section 2, 20_memory.md section 3). The sections say that a word of a port
is one event and that events are taken in order. That the events to come are a field of State and
withFetchWord presents one (both clauses) is log entry 1, and that a number is read as the port word of its
width (second clause) is log entry 5, both DESIGN CHOICE. -/
def Obligations.StepRunsTheDecodedEvent : Prop :=
  (∀ (s : State) (i : Instr) (ev : InEvent) (rest : List InEvent), s.io.script = ev :: rest →
    decode ev = i → i.wellFormed = true →
    step s = exec i { s with io := { s.io with script := rest } }) ∧
  (∀ (s : State) (nbits w : Nat) (i : Instr), decodeTableWord nbits w = some i →
    step (s.withFetchWord nbits w) = exec i s)

/-- A step with no event pending changes nothing (the model's choice, log entry 1) (60_exceptions.md section 1). -/
def Obligations.StepWithoutAnEventChangesNothing : Prop :=
  ∀ s : State, s.io.script = [] → step s = .next s

/-- Every operation on every state answers a next state (00_scope.md section 5). -/
def Obligations.EveryOperationCompletes : Prop :=
  ∀ (i : Instr) (s : State), ∃ t, exec i s = .next t

/-- Every operation emits at most three tokens, each of KIND 1 to 6 (R77, R107). -/
def Obligations.AnOperationEmitsAtMostThreeTokensOfSixKinds : Prop :=
  ∀ (i : Instr) (s t : State), exec i s = .next t →
    ∃ ws : List OutWord, t.io.trace = s.io.trace ++ ws ∧ ws.length ≤ 3 ∧
      ∀ w ∈ ws, 1 ≤ w.kind.toNat ∧ w.kind.toNat ≤ 6

/-- SAMPLE always counts; with EN = 0 or BYPASS = 1 it does nothing else (R121). -/
def Obligations.SampleAlwaysCountsAndIsGated : Prop :=
  ∀ (i q : Component) (s : State), ∃ t, exec (.sample i q) s = .next t ∧
    t.demod.tsamp.toNat = (s.demod.tsamp.toNat + 1) % 2 ^ 32 ∧
    ((s.ctl.en = false ∨ s.ctl.bypass = true) →
      t = { s with demod := { s.demod with tsamp := s.demod.tsamp + 1 } })

/-- A demodulated SAMPLE: energy, phase, coarse offset and delay line as the rules give them (R122, R123, R124,
R126, R127, R128, R129). -/
def Obligations.DemodulatedSampleFrontEnd : Prop :=
  ∀ (i q : Component) (s : State), s.ctl.en = true → s.ctl.bypass = false →
    ∃ t, exec (.sample i q) s = .next t ∧
      let p : Int := i.toInt * i.toInt + q.toInt * q.toInt
      let f : Int := if s.demod.phv then wrap16s (phaseByRule i q - s.demod.php.toNat) else 0
      let lim : Int := s.ctl.folim.toNat * 256
      0 ≤ p ∧ p ≤ 2 ^ 31 ∧
      (t.demod.energy.toNat : Int) =
        s.demod.energy.toNat + floorShr (p - s.demod.energy.toNat) s.ctl.enshift.toNat ∧
      (t.demod.php.toNat : Int) = phaseByRule i q ∧ t.demod.phv = true ∧
      (∃ u w, exec (.csrr 0x03#8) t = .next u ∧ u.io.rdata = t.io.rdata ++ [w] ∧
        (w.getLsbD 1 = true ↔ s.ctl.sqthr.toNat ≤ t.demod.energy.toNat)) ∧
      ∃ foff : Int,
        (s.ctl.sqthr.toNat ≤ t.demod.energy.toNat ∧ s.demod.locked = false →
          foff = clamp (s.demod.foff.toInt + floorShr (f * 256 - s.demod.foff.toInt) s.ctl.acq.toNat) (-lim) lim) ∧
        (t.demod.energy.toNat < s.ctl.sqthr.toNat ∨ s.demod.locked = true → foff = s.demod.foff.toInt) ∧
        (∃ x : BitVec 18, t.demod.dl.toList = x :: s.demod.dl.toList.take 47 ∧
          x.toInt = f - floorShr (foff + 128) 8) ∧
        (s.demod.locked = false ∨ 1 < s.demod.tcnt.toNat → t.demod.foff.toInt = foff)

/-- A demodulated SAMPLE with TCNT > 1 is its front end and counts TCNT down, and touches nothing else
(40_demodulator.md section 1). -/
def Obligations.SampleBetweenStrobesCountsDown : Prop :=
  ∀ (i q : Component) (s : State), s.ctl.en = true → s.ctl.bypass = false → 1 < s.demod.tcnt.toNat →
    ∃ t, exec (.sample i q) s = .next t ∧ FrontEndBy i q s t ∧
      t.demod.tsamp = s.demod.tsamp + 1 ∧ t.demod.tcnt.toNat = s.demod.tcnt.toNat - 1 ∧
      t.demod.sprev = s.demod.sprev ∧ t.demod.svalid = s.demod.svalid ∧ t.demod.tacc = s.demod.tacc ∧
      t.demod.eyeavg = s.demod.eyeavg ∧ t.demod.locked = s.demod.locked ∧
      t.demod.acqcnt = s.demod.acqcnt ∧
      t.fsync = s.fsync ∧ t.nid = s.nid ∧ t.evt = s.evt ∧ t.ctl = s.ctl ∧ t.io = s.io

/-- A demodulated SAMPLE with TCNT at most 1 is its front end followed by STROBE (40_demodulator.md section 1). -/
def Obligations.SampleAtAStrobeCallsStrobe : Prop :=
  ∀ (i q : Component) (s : State), s.ctl.en = true → s.ctl.bypass = false → s.demod.tcnt.toNat ≤ 1 →
    ∃ s1 : State,
      exec (.sample i q) s = exec (.strobe (decide (s1.ctl.sqthr.toNat ≤ s1.demod.energy.toNat))) s1 ∧
      FrontEndBy i q s s1 ∧ s1.demod.tsamp = s.demod.tsamp + 1 ∧ s1.demod.tcnt = s.demod.tcnt ∧
      s1.demod.sprev = s.demod.sprev ∧ s1.demod.svalid = s.demod.svalid ∧ s1.demod.tacc = s.demod.tacc ∧
      s1.demod.eyeavg = s.demod.eyeavg ∧ s1.demod.locked = s.demod.locked ∧
      s1.demod.acqcnt = s.demod.acqcnt ∧
      s1.fsync = s.fsync ∧ s1.nid = s.nid ∧ s1.evt = s.evt ∧ s1.ctl = s.ctl ∧ s1.io = s.io

/-- A demodulated SAMPLE moves ENERGY toward the sample power and never past it (40_demodulator.md section 1). -/
def Obligations.EnergyStaysBetweenOldValueAndPower : Prop :=
  ∀ (i q : Component) (s : State), s.ctl.en = true → s.ctl.bypass = false →
    ∃ t, exec (.sample i q) s = .next t ∧
      let p : Int := i.toInt * i.toInt + q.toInt * q.toInt
      min (s.demod.energy.toNat : Int) p ≤ t.demod.energy.toNat ∧
      (t.demod.energy.toNat : Int) ≤ max (s.demod.energy.toNat : Int) p ∧
      (s.demod.energy.toNat ≤ 2 ^ 31 → t.demod.energy.toNat ≤ 2 ^ 31) ∧
      (s.ctl.enshift = 0#4 → (t.demod.energy.toNat : Int) = p) ∧
      (p < s.demod.energy.toNat → t.demod.energy.toNat < s.demod.energy.toNat) ∧
      (s.demod.energy.toNat + 2 ^ s.ctl.enshift.toNat ≤ p → s.demod.energy.toNat < t.demod.energy.toNat)

/-- Negating a sample with I < 0 moves the phase SAMPLE latches by exactly half a turn (40_demodulator.md
section 1). -/
def Obligations.NegatedSampleIsHalfATurnAway : Prop :=
  ∀ (i q : Component) (s t u : State), s.ctl.en = true → s.ctl.bypass = false →
    i.toInt < 0 → -32768 < i.toInt → -32768 < q.toInt →
    exec (.sample i q) s = .next t → exec (.sample (-i) (-q)) s = .next u →
    t.demod.php = u.demod.php + 0x8000#16

/-- STROBE updates the soft value, the timing loop, the symbol clock and EYEAVG as the rules give them
(40_demodulator.md section 2). -/
def Obligations.StrobeUpdatesItsLoops : Prop :=
  ∀ (sig : Bool) (s : State), LegalCtl s.ctl →
    ∃ t, exec (.strobe sig) s = .next t ∧
      let n := s.ctl.sps.toNat
      let S0 := ((s.demod.dl.toList.take n).map BitVec.toInt).sum
      let S1 := (((s.demod.dl.toList.drop (n / 2)).take n).map BitVec.toInt).sum
      let sv := if s.ctl.mode then wrap16s S0 else sat16 S0
      let mv := if s.ctl.mode then wrap16s S1 else sat16 S1
      let a : Int := if 16384 ≤ sv then 3 else if 0 ≤ sv then 1 else if -16384 ≤ sv then -1 else -3
      let err := sv - a * 8192
      let e := if s.demod.svalid then
        floorShr ((sv - s.demod.sprev.toInt) * (2 * mv - sv - s.demod.sprev.toInt)) 16 else 0
      let acc := s.demod.tacc.toInt + e
      let tthr : Int := s.ctl.tthr.toNat
      t.demod.sprev.toInt = sv ∧ t.demod.svalid = true ∧
      (tthr < acc → t.demod.tacc.toInt = 0 ∧ t.demod.tcnt.toNat = n - 1) ∧
      (acc < -tthr → t.demod.tacc.toInt = 0 ∧ t.demod.tcnt.toNat = n + 1) ∧
      (-tthr ≤ acc → acc ≤ tthr → t.demod.tacc.toInt = acc ∧ t.demod.tcnt.toNat = n) ∧
      (t.demod.eyeavg.toNat : Int) =
        s.demod.eyeavg.toNat + floorShr (|err| - s.demod.eyeavg.toNat) s.ctl.eshift.toNat ∧
      t.demod.tsamp = s.demod.tsamp ∧ t.demod.energy = s.demod.energy ∧ t.demod.php = s.demod.php ∧
      t.demod.phv = s.demod.phv ∧ t.demod.dl = s.demod.dl ∧ t.ctl = s.ctl ∧
      t.io.script = s.io.script ∧ t.io.rdata = s.io.rdata

/-- STROBE while unlocked: ACQCNT and LOCKED as acquisition gives them, and no token (40_demodulator.md section
2). -/
def Obligations.StrobeAcquires : Prop :=
  ∀ (sig : Bool) (s : State), s.demod.locked = false →
    ∃ t, exec (.strobe sig) s = .next t ∧
      (sig = true ∧ eyeAfter s ≤ s.ctl.lthr.toNat →
        t.demod.acqcnt.toNat = min 1023 (s.demod.acqcnt.toNat + 1) ∧
        (t.demod.locked = true ↔ s.ctl.acqsyms.toNat ≤ t.demod.acqcnt.toNat)) ∧
      (sig = false ∨ s.ctl.lthr.toNat < eyeAfter s →
        t.demod.acqcnt = 0#10 ∧ t.demod.locked = false) ∧
      t.demod.foff = s.demod.foff ∧
      t.fsync = s.fsync ∧ t.nid = s.nid ∧ t.evt = s.evt ∧ t.ctl = s.ctl ∧ t.io = s.io

/-- STROBE while locked without a signal or with a closed eye loses lock with one marker (40_demodulator.md
section 2). -/
def Obligations.StrobeLosesLock : Prop :=
  ∀ (sig : Bool) (s : State), s.demod.locked = true →
    (sig = false ∨ s.ctl.uthr.toNat < eyeAfter s) →
    ∃ t, exec (.strobe sig) s = .next t ∧
      t.demod.locked = false ∧ t.demod.acqcnt = 0#10 ∧ t.demod.foff = s.demod.foff ∧
      t.fsync = { s.fsync with fstate := .search, sr := 0#48, srv := 0#5, srchcnt := 0#16 } ∧
      t.nid = { s.nid with loscnt := s.nid.loscnt + 1 } ∧ t.evt = s.evt ||| 0b00001#5 ∧
      t.ctl = s.ctl ∧
      Emits s t ((if s.fsync.fstate = .payload then [Token.frameEnd .los s.fsync.pos] else []) ++
        [Token.los (if sig then .timing else .energy)])

/-- STROBE while locked with a good symbol: slicer, fine tracking, the tapped SYM, then DIBIT (R132, R133, R134,
R141). -/
def Obligations.StrobeOutputsTheSymbol : Prop :=
  ∀ s : State, s.demod.locked = true → eyeAfter s ≤ s.ctl.uthr.toNat →
    ∃ (s1 t : State) (d : Dibit) (conf : BitVec 8) (err : Int),
      let sv := softAfter s
      let lim : Int := s.ctl.folim.toNat * 256
      (16384 ≤ sv → d = 1#2 ∧ err = sv - 24576) ∧
      (0 ≤ sv → sv < 16384 → d = 0#2 ∧ err = sv - 8192) ∧
      (-16384 ≤ sv → sv < 0 → d = 2#2 ∧ err = sv + 8192) ∧
      (sv < -16384 → d = 3#2 ∧ err = sv + 24576) ∧
      -8192 ≤ err ∧ err ≤ 8191 ∧
      exec (.strobe true) s = .next t ∧ exec (.dibit d conf) s1 = .next t ∧
      (conf.toNat : Int) = 255 - min 255 (floorShr |err| 5) ∧
      s1.demod.foff.toInt = clamp (s.demod.foff.toInt + floorShr (err * 256) s.ctl.trk.toNat) (-lim) lim ∧
      s1.demod.locked = true ∧ s1.demod.acqcnt = s.demod.acqcnt ∧ s1.demod.tsamp = s.demod.tsamp ∧
      s1.fsync = s.fsync ∧ s1.nid = s.nid ∧ s1.evt = s.evt ∧ s1.ctl = s.ctl ∧
      s1.io.script = s.io.script ∧ s1.io.rdata = s.io.rdata ∧
      Emits s s1 (if s.ctl.symtap then [Token.sym d conf] else [])

/-- UNLOCK clears LOCKED and ACQCNT, keeps the estimates, and is then LOSMARK (40_demodulator.md section 2). -/
def Obligations.UnlockClearsLockAndMarks : Prop :=
  ∀ (cause : LosCause) (s : State), ∃ t, exec (.unlock cause) s = .next t ∧
    exec (.losmark cause) { s with demod := { s.demod with locked := false, acqcnt := 0#10 } } = .next t ∧
    t.demod = { s.demod with locked := false, acqcnt := 0#10 }

/-- LOSMARK counts, flags, closes an open frame, clears the window and emits LOS, and nothing else (R171). -/
def Obligations.LosmarkResetsTheSearch : Prop :=
  ∀ (cause : LosCause) (s : State), ∃ t, exec (.losmark cause) s = .next t ∧
    t.demod = s.demod ∧ t.ctl = s.ctl ∧
    t.fsync = { s.fsync with fstate := .search, sr := 0#48, srv := 0#5, srchcnt := 0#16 } ∧
    t.nid = { s.nid with loscnt := s.nid.loscnt + 1 } ∧ t.evt = s.evt ||| 0b00001#5 ∧
    t.io.script = s.io.script ∧ t.io.rdata = s.io.rdata ∧
    Emits s t ((if s.fsync.fstate = .payload then [Token.frameEnd .los s.fsync.pos] else []) ++
      [Token.los cause])

/-- DIBIT shifts every dibit into the window, in every state (R161). -/
def Obligations.DibitShiftsTheWindow : Prop :=
  ∀ (d : Dibit) (conf : BitVec 8) (s : State), ∃ t, exec (.dibit d conf) s = .next t ∧
    t.fsync.sr.toNat = (s.fsync.sr.toNat * 4 + d.toNat) % 2 ^ 48 ∧
    t.fsync.srv.toNat = min 24 (s.fsync.srv.toNat + 1)

/-- A DIBIT that completes a sync match starts a new candidate, in any state (R164). -/
def Obligations.DibitThatCompletesASyncStartsACandidate : Prop :=
  ∀ (d : Dibit) (conf : BitVec 8) (s : State), CompletesSync d s →
    ∃ t, exec (.dibit d conf) s = .next t ∧
      t.fsync.syncq.toNat = 48 - distanceAfter d s ∧
      t.fsync = { s.fsync with
        sr := windowAfter d s, srv := 24#5, fstate := .nid, pos := 24#12, nidacc := 0#64, nidn := 0#6,
        srchcnt := 0#16, tstamp := s.demod.tsamp, syncq := t.fsync.syncq } ∧
      t.nid = { s.nid with synccnt := s.nid.synccnt + 1 } ∧
      t.demod = s.demod ∧ t.evt = s.evt ∧ t.ctl = s.ctl ∧
      t.io.script = s.io.script ∧ t.io.rdata = s.io.rdata ∧
      Emits s t (if s.fsync.fstate = .payload then [Token.frameEnd .resync s.fsync.pos] else [])

/-- A DIBIT without a match in SEARCH only runs the search window (R167). -/
def Obligations.DibitWithoutAMatchInSearchCounts : Prop :=
  ∀ (d : Dibit) (conf : BitVec 8) (s : State), s.fsync.fstate = .search → ¬ CompletesSync d s →
    ∃ t, exec (.dibit d conf) s = .next t ∧
      let f := { s.fsync with sr := windowAfter d s, srv := BitVec.ofNat 5 (min 24 (s.fsync.srv.toNat + 1)) }
      let c := s.fsync.srchcnt.toNat + 1
      (s.ctl.srchwin = 0#16 → t = { s with fsync := f }) ∧
      (s.ctl.srchwin ≠ 0#16 → c < s.ctl.srchwin.toNat →
        t.fsync.srchcnt.toNat = c ∧ t = { s with fsync := { f with srchcnt := t.fsync.srchcnt } }) ∧
      (s.ctl.srchwin ≠ 0#16 → s.ctl.srchwin.toNat ≤ c →
        t = { s with fsync := { f with srchcnt := 0#16 }, evt := s.evt ||| 0b01000#5 })

/-- A DIBIT without a match in NID is dropped as a status symbol or collected, the 32nd calling NIDDEC
(41_framesync.md section 1). -/
def Obligations.DibitCollectsTheNid : Prop :=
  ∀ (d : Dibit) (conf : BitVec 8) (s : State), s.fsync.fstate = .nid → ¬ CompletesSync d s →
    ∃ (t : State) (acc : BitVec 64), exec (.dibit d conf) s = .next t ∧
      acc.toNat = (s.fsync.nidacc.toNat * 4 + d.toNat) % 2 ^ 64 ∧
      let f := { s.fsync with
        sr := windowAfter d s, srv := BitVec.ofNat 5 (min 24 (s.fsync.srv.toNat + 1)),
        pos := s.fsync.pos + 1 }
      let s1 := { s with fsync := { f with nidacc := acc, nidn := s.fsync.nidn + 1 } }
      (s.fsync.pos.toNat % 36 = 35 → t = { s with fsync := f }) ∧
      (s.fsync.pos.toNat % 36 ≠ 35 → s.fsync.nidn + 1 ≠ 32#6 → t = s1) ∧
      (s.fsync.pos.toNat % 36 ≠ 35 → s.fsync.nidn + 1 = 32#6 → exec .niddec s1 = .next t)

/-- In a legal state the dibit that calls NIDDEC is index 56, so NIDDEC runs with POS = 57 and NIDN = 32
(42_nid_decoder.md section 2, 41_framesync.md section 1). -/
def Obligations.NiddecRunsAtIndex56 : Prop :=
  ∀ s : State, Legal s → s.fsync.fstate = .nid → s.fsync.pos.toNat % 36 ≠ 35 →
    (s.fsync.nidn + 1 = 32#6 ↔ s.fsync.pos = 56#12) ∧
    ∀ (d : Dibit) (conf : BitVec 8), s.fsync.nidn + 1 = 32#6 → ¬ CompletesSync d s →
      ∃ s1 t, exec (.dibit d conf) s = .next t ∧ exec .niddec s1 = .next t ∧
        s1.fsync.pos = 57#12 ∧ s1.fsync.nidn = 32#6 ∧ s1.fsync.fstate = .nid

/-- A DIBIT without a match in PAYLOAD is forwarded as PAY, and the last one closes the frame (R169). -/
def Obligations.DibitForwardsThePayload : Prop :=
  ∀ (d : Dibit) (conf : BitVec 8) (s : State), s.fsync.fstate = .payload →
    s.fsync.pos.toNat < 4095 → ¬ CompletesSync d s →
    ∃ t, exec (.dibit d conf) s = .next t ∧
      let pay := Token.pay d (decide (s.fsync.pos.toNat % 36 = 35)) conf s.fsync.pos
      let f := { s.fsync with
        sr := windowAfter d s, srv := BitVec.ofNat 5 (min 24 (s.fsync.srv.toNat + 1)),
        pos := t.fsync.pos }
      t.fsync.pos.toNat = s.fsync.pos.toNat + 1 ∧
      t.demod = s.demod ∧ t.nid = s.nid ∧ t.evt = s.evt ∧ t.ctl = s.ctl ∧
      t.io.script = s.io.script ∧ t.io.rdata = s.io.rdata ∧
      (s.fsync.pos.toNat + 1 < s.fsync.flen.toNat → t.fsync = f ∧ Emits s t [pay]) ∧
      (s.fsync.flen.toNat ≤ s.fsync.pos.toNat + 1 →
        t.fsync = { f with fstate := .search, srchcnt := 0#16 } ∧
        Emits s t [pay, Token.frameEnd .len t.fsync.pos])

/-- Detection guarantee: 24 consecutive dibits within N bits of SYNCPAT match, further ones do not (R174). -/
def Obligations.TwentyFourDibitsDecideTheMatch : Prop :=
  ∀ (s s23 t : State) (ds : List (Dibit × BitVec 8)) (d : Dibit) (conf : BitVec 8), ds.length = 23 →
    execAll (ds.map fun x => Instr.dibit x.1 x.2) s = .next s23 → exec (.dibit d conf) s23 = .next t →
    let dist := popcount (BitVec.ofNat 48 (packDibits (ds.map Prod.fst ++ [d])) ^^^ s.ctl.syncpat)
    (dist ≤ s.ctl.syncthr.toNat → ¬(s23.fsync.fstate = .payload ∧ s.ctl.holdoff = true) →
      t.fsync.fstate = .nid ∧ t.fsync.pos = 24#12 ∧ t.nid.synccnt = s23.nid.synccnt + 1) ∧
    (s.ctl.syncthr.toNat < dist → t.nid.synccnt = s23.nid.synccnt)

/-- NIDDEC accepts a NID within NIDT bits of a codeword, with the fields of that codeword (R197, R198, R200,
R201, R202). -/
def Obligations.NiddecAcceptsANearbyCodeword : Prop :=
  (∀ (s : State) (m : BitVec 16), s.ctl.nidt.toNat ≤ 11 →
    popcount (s.fsync.nidacc.extractLsb' 1 63 ^^^ enc m) ≤ s.ctl.nidt.toNat →
    ∃ t, exec .niddec s = .next t ∧
      let nerr := popcount (s.fsync.nidacc.extractLsb' 1 63 ^^^ enc m)
      let duid := m.extractLsb' 0 4
      let entry := s.ctl.dutab[duid.toNat]'duid.isLt
      let hdr := Token.hdr s.fsync.tstamp (m.extractLsb' 4 12) duid entry.cls (s.fsync.nidacc.getLsbD 0)
        (BitVec.ofNat 4 nerr) s.fsync.syncq
      nerr < 16 ∧
      t.nid = { s.nid with lastnid := s.fsync.nidacc, framecnt := s.nid.framecnt + 1 } ∧
      t.evt = s.evt ||| 0b00100#5 ∧ t.demod = s.demod ∧ t.ctl = s.ctl ∧
      t.io.script = s.io.script ∧ t.io.rdata = s.io.rdata ∧
      (entry.len.toNat ≤ s.fsync.pos.toNat →
        t.fsync = { s.fsync with flen := entry.len, fstate := .search, srchcnt := 0#16 } ∧
        Emits s t [hdr, Token.frameEnd .len s.fsync.pos]) ∧
      (s.fsync.pos.toNat < entry.len.toNat →
        t.fsync = { s.fsync with flen := entry.len, fstate := .payload } ∧ Emits s t [hdr])) ∧
  (∀ s t : State, exec .niddec s = .next t → t.nid.lastnid = s.fsync.nidacc)

/-- NIDDEC rejects a NID that lies more than NIDT bits from every codeword (R199). -/
def Obligations.NiddecRejectsWhenNoCodewordIsNear : Prop :=
  ∀ s : State,
    (∀ m, s.ctl.nidt.toNat < popcount (s.fsync.nidacc.extractLsb' 1 63 ^^^ enc m)) →
    ∃ t, exec .niddec s = .next t ∧
      t.nid = { s.nid with lastnid := s.fsync.nidacc, decerrcnt := s.nid.decerrcnt + 1 } ∧
      t.evt = s.evt ||| 0b00010#5 ∧
      t.fsync = { s.fsync with fstate := .search, srchcnt := 0#16 } ∧
      t.demod = s.demod ∧ t.ctl = s.ctl ∧ t.io.script = s.io.script ∧ t.io.rdata = s.io.rdata ∧
      Emits s t [Token.decerr s.fsync.nidacc]

/-- A NID with NIDT < e <= 22 - NIDT flipped code bits is certainly rejected (42_nid_decoder.md section 3). -/
def Obligations.NiddecRejectsBeyondItsRadius : Prop :=
  ∀ (s : State) (m : BitVec 16),
    s.ctl.nidt.toNat < popcount (s.fsync.nidacc.extractLsb' 1 63 ^^^ enc m) →
    popcount (s.fsync.nidacc.extractLsb' 1 63 ^^^ enc m) + s.ctl.nidt.toNat ≤ 22 →
    ∃ t, exec .niddec s = .next t ∧ t.nid.decerrcnt = s.nid.decerrcnt + 1 ∧
      t.nid.framecnt = s.nid.framecnt ∧ t.fsync.fstate = .search ∧
      Emits s t [Token.decerr s.fsync.nidacc]

/-- NIDDEC changes LASTNID, one counter, one sticky bit, FLEN, FSTATE and SRCHCNT only (R197, R206). -/
def Obligations.NiddecTouchesOnlyItsOwnState : Prop :=
  ∀ s : State, ∃ t toks, exec .niddec s = .next t ∧
    t.demod = s.demod ∧ t.ctl = s.ctl ∧ t.io.script = s.io.script ∧ t.io.rdata = s.io.rdata ∧
    Emits s t toks ∧ 1 ≤ toks.length ∧ toks.length ≤ 2 ∧
    t.fsync = { s.fsync with
      flen := t.fsync.flen, fstate := t.fsync.fstate, srchcnt := t.fsync.srchcnt } ∧
    (t.fsync.fstate = .search ∧ t.fsync.srchcnt = 0#16 ∨
      t.fsync.fstate = .payload ∧ t.fsync.srchcnt = s.fsync.srchcnt) ∧
    (t.evt = s.evt ||| 0b00100#5 ∧
        t.nid = { s.nid with lastnid := s.fsync.nidacc, framecnt := s.nid.framecnt + 1 } ∨
      t.evt = s.evt ||| 0b00010#5 ∧ t.fsync.flen = s.fsync.flen ∧ t.fsync.fstate = .search ∧
        t.nid = { s.nid with lastnid := s.fsync.nidacc, decerrcnt := s.nid.decerrcnt + 1 })

/-- The NID code is linear with minimum distance 23, so at most one codeword is within 11 bits (R193). -/
def Obligations.NidCodeHasMinimumDistance23 : Prop :=
  pmod (2 ^ 63 + 1) Config.gpoly = 0 ∧
  (∀ m : BitVec 16, m ≠ 0#16 → 23 ≤ popcount (enc m)) ∧
  (∀ m m' : BitVec 16, enc m ^^^ enc m' = enc (m ^^^ m')) ∧
  (∀ m m' : BitVec 16, m ≠ m' → 23 ≤ popcount (enc m ^^^ enc m')) ∧
  (∀ (r : CodeWord) (m m' : BitVec 16), popcount (r ^^^ enc m) ≤ 11 → popcount (r ^^^ enc m') ≤ 11 →
    m = m')

/-- enc is systematic and its words are exactly the 63-bit words that GPOLY divides (R192). -/
def Obligations.CodewordsAreTheMultiplesOfGpoly : Prop :=
  (∀ m : BitVec 16, (enc m).toNat = (m.toNat <<< 47) ^^^ pmod (m.toNat <<< 47) Config.gpoly) ∧
  (∀ m : BitVec 16, (enc m).extractLsb' 47 16 = m) ∧
  (∀ c : CodeWord, pmod c.toNat Config.gpoly = 0 ↔ ∃ m, c = enc m) ∧
  (∀ m m' : BitVec 16, m ≠ m' → 23 ≤ popcount (enc m ^^^ enc m')) ∧
  (∃ m m' : BitVec 16, popcount (enc m ^^^ enc m') = 23) ∧
  enc 0x0001#16 = 0x0000CD930BDD3B2B#63 ∧ enc 0x8000#16 = 0x400066C985EE9D95#63 ∧
  (∀ i < 64, Config.gpoly.testBit i = decide (i ∈ [47, 46, 43, 42, 40, 39, 36, 33, 32, 27, 25, 24, 23, 22, 20,
    19, 18, 16, 13, 12, 11, 9, 8, 5, 3, 1, 0]))

/-- CSRR returns one word and changes nothing, except CTLERR_EVT for an unmapped number (R88). -/
def Obligations.CsrrOnlyReturnsAWord : Prop :=
  ∀ (a : RegNum) (s : State), ∃ v : BitVec 32,
    (¬ Unmapped a → exec (.csrr a) s = .next { s with io := { s.io with rdata := s.io.rdata ++ [v] } }) ∧
    (Unmapped a → v = 0#32 ∧ exec (.csrr a) s = .next { s with
      evt := s.evt ||| 0b10000#5, io := { s.io with rdata := s.io.rdata ++ [v] } })

/-- CSRR returns, for each register number, the value of the read table (R216). -/
def Obligations.CsrrReturnsTheRegisterTable : Prop :=
  ∀ s : State,
    Returns s 0x00#8 0x50323501 ∧
    Returns s 0x01#8 (s.ctl.en.toNat + 2 * s.ctl.mode.toNat + 4 * s.ctl.symtap.toNat +
      8 * s.ctl.holdoff.toNat + 16 * s.ctl.bypass.toNat) ∧
    Returns s 0x02#8 0 ∧
    Returns s 0x03#8 (s.demod.locked.toNat + 2 * (decide (s.ctl.sqthr.toNat ≤ s.demod.energy.toNat)).toNat +
      4 * (match s.fsync.fstate with | .search => 0 | .nid => 1 | .payload => 2) + 256 * s.evt.toNat) ∧
    Returns s 0x04#8 (256 * s.ctl.irqen.toNat) ∧
    Returns s 0x05#8 s.ctl.sps.toNat ∧ Returns s 0x06#8 s.ctl.sqthr.toNat ∧
    Returns s 0x07#8 s.ctl.enshift.toNat ∧ Returns s 0x08#8 s.ctl.folim.toNat ∧
    Returns s 0x09#8 (16 * s.ctl.acq.toNat + s.ctl.trk.toNat) ∧
    Returns s 0x0A#8 s.ctl.tthr.toNat ∧
    Returns s 0x0B#8 (65536 * s.ctl.uthr.toNat + s.ctl.lthr.toNat) ∧
    Returns s 0x0C#8 s.ctl.acqsyms.toNat ∧ Returns s 0x0D#8 s.ctl.syncthr.toNat ∧
    Returns s 0x0E#8 (s.ctl.syncpat.toNat % 2 ^ 32) ∧ Returns s 0x0F#8 (s.ctl.syncpat.toNat / 2 ^ 32) ∧
    Returns s 0x10#8 s.ctl.srchwin.toNat ∧ Returns s 0x11#8 s.ctl.nidt.toNat ∧
    Returns s 0x12#8 s.nid.decerrcnt.toNat ∧ Returns s 0x13#8 s.nid.framecnt.toNat ∧
    Returns s 0x14#8 s.nid.loscnt.toNat ∧ Returns s 0x15#8 s.nid.synccnt.toNat ∧
    Returns s 0x16#8 s.demod.tsamp.toNat ∧ Returns s 0x17#8 (s.demod.foff.toInt % 2 ^ 32).toNat ∧
    Returns s 0x18#8 s.demod.energy.toNat ∧ Returns s 0x19#8 0 ∧
    Returns s 0x1A#8 (s.nid.lastnid.toNat % 2 ^ 32) ∧ Returns s 0x1B#8 (s.nid.lastnid.toNat / 2 ^ 32) ∧
    Returns s 0x1C#8 s.demod.eyeavg.toNat ∧
    Returns s 0x1D#8 (65536 * s.fsync.syncq.toNat + s.fsync.pos.toNat) ∧
    Returns s 0x1E#8 s.ctl.eshift.toNat ∧
    (∀ d : BitVec 4, Returns s (2#4 ++ d)
      (4096 * (s.ctl.dutab[d.toNat]'d.isLt).cls.toNat + (s.ctl.dutab[d.toNat]'d.isLt).len.toNat)) ∧
    (∀ a : RegNum, Unmapped a → exec (.csrr a) s = .next { s with
      evt := s.evt ||| 0b10000#5, io := { s.io with rdata := s.io.rdata ++ [0#32] } })

/-- CSRW does, for each register number, what the write table says (R217). -/
def Obligations.CsrwStoresTheRegisterTable : Prop :=
  ∀ (v : Word32) (s : State),
    exec (.csrw 0x01#8 v) s = .next { s with ctl := { s.ctl with
      en := v.getLsbD 0, mode := v.getLsbD 1, symtap := v.getLsbD 2, holdoff := v.getLsbD 3,
      bypass := v.getLsbD 4 } } ∧
    exec (.csrw 0x02#8 v) s = (if v.getLsbD 31 then exec .srst s
      else if v.getLsbD 0 then exec (.flush (v.getLsbD 1)) s
      else if v.getLsbD 1 then exec .clrcnt s else .next s) ∧
    exec (.csrw 0x03#8 v) s = exec (.statusw1c (v.extractLsb' 8 5)) s ∧
    exec (.csrw 0x04#8 v) s = .next { s with ctl := { s.ctl with irqen := v.extractLsb' 8 5 } } ∧
    exec (.csrw 0x05#8 v) s =
      (if v.toNat % 64 % 2 = 0 ∧ 4 ≤ v.toNat % 64 ∧ v.toNat % 64 ≤ 32 then
        .next { s with ctl := { s.ctl with sps := v.extractLsb' 0 6 } } else .next (withControlError s)) ∧
    exec (.csrw 0x06#8 v) s = .next { s with ctl := { s.ctl with sqthr := v } } ∧
    exec (.csrw 0x07#8 v) s = .next { s with ctl := { s.ctl with enshift := v.extractLsb' 0 4 } } ∧
    exec (.csrw 0x08#8 v) s = .next { s with ctl := { s.ctl with folim := v.extractLsb' 0 15 } } ∧
    exec (.csrw 0x09#8 v) s =
      .next { s with ctl := { s.ctl with trk := v.extractLsb' 0 4, acq := v.extractLsb' 4 4 } } ∧
    exec (.csrw 0x0A#8 v) s = .next { s with ctl := { s.ctl with tthr := v.extractLsb' 0 24 } } ∧
    exec (.csrw 0x0B#8 v) s =
      .next { s with ctl := { s.ctl with lthr := v.extractLsb' 0 14, uthr := v.extractLsb' 16 14 } } ∧
    exec (.csrw 0x0C#8 v) s = .next { s with ctl := { s.ctl with acqsyms := v.extractLsb' 0 10 } } ∧
    exec (.csrw 0x0D#8 v) s = .next { s with ctl := { s.ctl with syncthr := v.extractLsb' 0 6 } } ∧
    exec (.csrw 0x0E#8 v) s =
      .next { s with ctl := { s.ctl with syncpat := s.ctl.syncpat.extractLsb' 32 16 ++ v } } ∧
    exec (.csrw 0x0F#8 v) s = .next { s with ctl := { s.ctl with
      syncpat := v.extractLsb' 0 16 ++ s.ctl.syncpat.extractLsb' 0 32 } } ∧
    exec (.csrw 0x10#8 v) s = .next { s with ctl := { s.ctl with srchwin := v.extractLsb' 0 16 } } ∧
    exec (.csrw 0x11#8 v) s =
      (if v.toNat % 16 ≤ 11 then .next { s with ctl := { s.ctl with nidt := v.extractLsb' 0 4 } }
      else .next (withControlError s)) ∧
    exec (.csrw 0x19#8 v) s = (if v.getLsbD 8 then exec .losinj s
      else exec (.sym (v.extractLsb' 0 2) (v.extractLsb' 16 8)) s) ∧
    exec (.csrw 0x1E#8 v) s = .next { s with ctl := { s.ctl with eshift := v.extractLsb' 0 4 } } ∧
    (∀ d : BitVec 4, exec (.csrw (2#4 ++ d) v) s = .next { s with ctl := { s.ctl with
      dutab := s.ctl.dutab.set d.toNat ⟨v.extractLsb' 12 3, v.extractLsb' 0 12⟩ d.isLt } }) ∧
    (∀ a : RegNum, ReadOnly a ∨ Unmapped a → exec (.csrw a v) s = .next (withControlError s))

/-- CTLERR_EVT is set by exactly the accesses of the list, and nothing else changes then (R218). -/
def Obligations.ControlErrorsAreExactlyTheListedOnes : Prop :=
  ∀ (a : RegNum) (v : Word32) (s : State),
    (Unmapped a → exec (.csrr a) s = .next { withControlError s with
      io := { s.io with rdata := s.io.rdata ++ [0#32] } }) ∧
    (WriteError a v s → exec (.csrw a v) s = .next (withControlError s)) ∧
    (s.ctl.bypass = false → exec .losinj s = .next (withControlError s) ∧
      ∀ (d : Dibit) (conf : BitVec 8), exec (.sym d conf) s = .next (withControlError s)) ∧
    (¬ Unmapped a → ∀ t, exec (.csrr a) s = .next t → t.evt = s.evt) ∧
    (¬ WriteError a v s → ∀ t, exec (.csrw a v) s = .next t → t.evt.getLsbD 4 = true →
      s.evt.getLsbD 4 = true) ∧
    (s.ctl.bypass = true → ∀ t, exec .losinj s = .next t → t.evt.getLsbD 4 = s.evt.getLsbD 4) ∧
    (s.ctl.bypass = true → ∀ (d : Dibit) (conf : BitVec 8) (t : State), exec (.sym d conf) s = .next t →
      t.evt.getLsbD 4 = s.evt.getLsbD 4) ∧
    (∀ (clr : BitVec 5) (t : State), exec (.statusw1c clr) s = .next t → t.evt.getLsbD 4 = true →
      s.evt.getLsbD 4 = true) ∧
    (∀ (i : Instr) (t : State), exec i s = .next t → t.evt.getLsbD 4 = true →
      s.evt.getLsbD 4 = true ∨ (∃ b, Unmapped b ∧ i = .csrr b) ∨
      (∃ b w, WriteError b w s ∧ i = .csrw b w) ∨
      (s.ctl.bypass = false ∧ (i = .losinj ∨ ∃ d conf, i = .sym d conf)))

/-- Reading a writable register right after writing it returns the written word with the reserved bits 0
(43_control_port.md sections 1 and 2). -/
def Obligations.ReadBackReturnsTheWrittenFields : Prop :=
  ∀ (v : Word32) (s : State) (a : RegNum) (mask : Word32),
    ((a, mask) ∈ [(0x01#8, 0x1F#32), (0x04#8, 0x1F00#32), (0x05#8, 0x3F#32), (0x06#8, 0xFFFFFFFF#32),
        (0x07#8, 0xF#32), (0x08#8, 0x7FFF#32), (0x09#8, 0xFF#32), (0x0A#8, 0xFFFFFF#32),
        (0x0B#8, 0x3FFF3FFF#32), (0x0C#8, 0x3FF#32), (0x0D#8, 0x3F#32), (0x0E#8, 0xFFFFFFFF#32),
        (0x0F#8, 0xFFFF#32), (0x10#8, 0xFFFF#32), (0x11#8, 0xF#32), (0x1E#8, 0xF#32)] ∨
      (a.toNat / 16 = 2 ∧ mask = 0x7FFF#32)) →
    ¬ WriteError a v s →
    ∃ t u, exec (.csrw a v) s = .next t ∧ exec (.csrr a) t = .next u ∧
      u.io.rdata = s.io.rdata ++ [v &&& mask]

/-- A write of STATUS clears exactly the sticky bits written as 1; no other operation but a reset clears one
(R224). -/
def Obligations.StatusWriteClearsExactlyTheNamedBits : Prop :=
  (∀ (clr : BitVec 5) (s : State), ∃ t, exec (.statusw1c clr) s = .next t ∧
    (∀ i < 5, t.evt.getLsbD i = (s.evt.getLsbD i && !clr.getLsbD i)) ∧ t = { s with evt := t.evt }) ∧
  (∀ (v : Word32) (s : State) (rest : List InEvent), s.io.script = writeEvent 0x03#8 v :: rest →
    ∃ t, step s = .next t ∧ (∀ i < 5, t.evt.getLsbD i = (s.evt.getLsbD i && !v.getLsbD (8 + i))) ∧
      t = { s with evt := t.evt, io := { s.io with script := rest } }) ∧
  (∀ (i : Instr) (s t : State), exec i s = .next t → i ≠ .rst → i ≠ .srst →
    (∀ clr, i ≠ .statusw1c clr) → (∀ v, i ≠ .csrw 0x02#8 v ∧ i ≠ .csrw 0x03#8 v) →
    ∀ j < 5, s.evt.getLsbD j = true → t.evt.getLsbD j = true)

/-- RST gives every element its reset value; that the ports stay as they are is the model's choice (log entry 2)
(R270, R295). The reset values are those of R270 and the delivered tokens are R295. That the events to come
and the words read stay as they were is no rule of the spec but log entry 2, DESIGN CHOICE. -/
def Obligations.RstGivesEveryElementItsResetValue : Prop :=
  ∀ s : State, ∃ t, exec .rst s = .next t ∧ t.io = s.io ∧ irq t = false ∧ State.reset.io.trace = [] ∧
    t.demod.tsamp = 0 ∧ t.demod.energy = 0 ∧ t.demod.php = 0 ∧ t.demod.phv = false ∧ t.demod.foff = 0 ∧
    t.demod.dl.toList = List.replicate 48 0#18 ∧ t.demod.tcnt = 10 ∧ t.demod.sprev = 0 ∧
    t.demod.svalid = false ∧ t.demod.tacc = 0 ∧ t.demod.eyeavg = 8191 ∧ t.demod.locked = false ∧
    t.demod.acqcnt = 0 ∧
    t.fsync.sr = 0 ∧ t.fsync.srv = 0 ∧ t.fsync.fstate = .search ∧ t.fsync.pos = 0 ∧ t.fsync.nidacc = 0 ∧
    t.fsync.nidn = 0 ∧ t.fsync.srchcnt = 0 ∧ t.fsync.syncq = 0 ∧ t.fsync.tstamp = 0 ∧ t.fsync.flen = 0 ∧
    t.nid.lastnid = 0 ∧ t.nid.decerrcnt = 0 ∧ t.nid.framecnt = 0 ∧ t.nid.loscnt = 0 ∧ t.nid.synccnt = 0 ∧
    t.evt = 0 ∧ t.ctl.en = false ∧ t.ctl.mode = false ∧ t.ctl.symtap = false ∧ t.ctl.holdoff = false ∧
    t.ctl.bypass = false ∧ t.ctl.irqen = 0 ∧ t.ctl.sps = 10 ∧ t.ctl.sqthr = 65536 ∧ t.ctl.enshift = 6 ∧
    t.ctl.folim = 3413 ∧ t.ctl.acq = 9 ∧ t.ctl.trk = 8 ∧ t.ctl.tthr = 32768 ∧ t.ctl.lthr = 0xC00 ∧
    t.ctl.uthr = 0xE00 ∧ t.ctl.eshift = 6 ∧ t.ctl.acqsyms = 64 ∧ t.ctl.syncthr = 4 ∧
    t.ctl.syncpat = 0x5575F5FF77FF ∧ t.ctl.srchwin = 1728 ∧ t.ctl.nidt = 11 ∧
    (t.ctl.dutab.toList.map fun e => (e.cls.toNat, e.len.toNat)) =
      [(1, 396), (0, 0), (0, 0), (5, 72), (0, 0), (3, 864), (0, 0), (2, 360),
       (0, 0), (0, 0), (4, 864), (0, 0), (0, 0), (0, 0), (0, 0), (5, 216)]

/-- SRST has exactly the effect of RST and emits no token; that the ports stay as they are is the model's choice
(log entry 2) (R271). The effect and the absence of a token are R271. That the events to come and the words
read stay as they were is no rule of the spec but log entry 2, DESIGN CHOICE. -/
def Obligations.SrstIsRst : Prop :=
  ∀ s : State, exec .srst s = exec .rst s ∧
    ∃ t, exec .srst s = .next t ∧ t.demod.tsamp = 0#32 ∧ t.io = s.io

/-- FLUSH closes an open frame and clears the datapath of DEMOD and FSYNC, keeping the rest (R221). -/
def Obligations.FlushClearsTheDatapath : Prop :=
  ∀ s : State, ∃ t, exec (.flush false) s = .next t ∧
    t.demod = { s.demod with
      energy := 0#32, php := 0#16, phv := false, foff := 0#24, dl := Vector.replicate 48 0#18,
      tcnt := s.ctl.sps, sprev := 0#16, svalid := false, tacc := 0#26, eyeavg := 8191#14,
      locked := false, acqcnt := 0#10 } ∧
    t.fsync = {
      sr := 0#48, srv := 0#5, fstate := .search, pos := 0#12, nidacc := 0#64, nidn := 0#6,
      srchcnt := 0#16, syncq := 0#6, tstamp := 0#32, flen := 0#12 } ∧
    t.nid = s.nid ∧ t.evt = s.evt ∧ t.ctl = s.ctl ∧ t.io.script = s.io.script ∧ t.io.rdata = s.io.rdata ∧
    Emits s t (if s.fsync.fstate = .payload then [Token.frameEnd .flush s.fsync.pos] else [])

/-- CLRCNT sets the four counters to 0 and changes nothing else (R222). -/
def Obligations.ClrcntClearsTheFourCounters : Prop :=
  ∀ s : State, exec .clrcnt s = .next { s with nid :=
    { lastnid := s.nid.lastnid, decerrcnt := 0#32, framecnt := 0#32, loscnt := 0#32, synccnt := 0#32 } }

/-- A write of CMD is SRST alone, or FLUSH and then CLRCNT, and nothing where no command bit is set (R219). -/
def Obligations.CmdWriteOrdersItsCommands : Prop :=
  (∀ (v : Word32) (s : State),
    (v.getLsbD 31 = true → exec (.csrw 0x02#8 v) s = exec .srst s) ∧
    (v.getLsbD 31 = false → v.getLsbD 0 = true → v.getLsbD 1 = false →
      exec (.csrw 0x02#8 v) s = exec (.flush false) s) ∧
    (v.getLsbD 31 = false → v.getLsbD 0 = false → v.getLsbD 1 = true →
      exec (.csrw 0x02#8 v) s = exec .clrcnt s) ∧
    (v.getLsbD 31 = false → v.getLsbD 0 = true → v.getLsbD 1 = true →
      exec (.csrw 0x02#8 v) s = execAll [.flush false, .clrcnt] s) ∧
    (v.getLsbD 31 = false → v.getLsbD 0 = false → v.getLsbD 1 = false →
      exec (.csrw 0x02#8 v) s = .next s)) ∧
  (∀ s : State, exec (.flush true) s = execAll [.flush false, .clrcnt] s)

/-- SYM and LOSINJ with BYPASS = 1 are DIBIT and LOSMARK(3); with BYPASS = 0 a control error (R223). -/
def Obligations.InjectionNeedsBypassAndBypassesDemod : Prop :=
  ∀ (d : Dibit) (conf : BitVec 8) (s : State),
    (s.ctl.bypass = false → exec (.sym d conf) s = .next (withControlError s) ∧
      exec .losinj s = .next (withControlError s)) ∧
    (s.ctl.bypass = true →
      (∃ t toks, exec (.sym d conf) s = .next t ∧ exec (.dibit d conf) s = .next t ∧
        t.demod = s.demod ∧ Emits s t toks ∧ ∀ x ∈ toks, (tokenWord x).kind ≠ 1#4) ∧
      (∃ t, exec .losinj s = .next t ∧ exec (.losmark .injected) s = .next t ∧ t.demod = s.demod)) ∧
    ∀ v : Word32,
      (s.ctl.bypass = false → exec (.csrw 0x19#8 v) s = .next (withControlError s)) ∧
      (s.ctl.bypass = true → v.getLsbD 8 = true →
        exec (.csrw 0x19#8 v) s = exec (.losmark .injected) s) ∧
      (s.ctl.bypass = true → v.getLsbD 8 = false →
        exec (.csrw 0x19#8 v) s = exec (.dibit (v.extractLsb' 0 2) (v.extractLsb' 16 8)) s)

/-- irq is 1 exactly when some sticky bit is set and enabled (R65). -/
def Obligations.IrqIsPendingAndEnabled : Prop :=
  ∀ s : State, irq s = true ↔ ∃ i < 5, s.evt.getLsbD i = true ∧ s.ctl.irqen.getLsbD i = true

/-- The reset state is legal and its trace is well formed (10_state.md section 7). -/
def Obligations.ResetStateIsLegal : Prop :=
  Legal State.reset ∧ WellFormedTrace State.reset

/-- Every step keeps the state legal (10_state.md sections 2, 3 and 8, 41_framesync.md section 1). -/
def Obligations.StepKeepsLegal : Prop :=
  ∀ s t : State, Legal s → step s = .next t → Legal t

/-- Every step but a reset in PAYLOAD keeps the output trace in the grammar, inside a frame exactly while FSTATE
is PAYLOAD (30_encoding.md section 4, 70_reset_and_hazards.md section 1). R108 and R271 disagree on a frame
that a reset cuts, and the model follows R271: log entry 6, DEDUCED. -/
def Obligations.StepKeepsTheTraceGrammar : Prop :=
  ∀ s t : State, Legal s → WellFormedTrace s →
    (∀ ev rest, s.io.script = ev :: rest → decode ev = .rst ∨ decode ev = .srst →
      s.fsync.fstate ≠ .payload) →
    step s = .next t → WellFormedTrace t

/-- FRAMECNT, DECERRCNT and LOSCNT go up by exactly the HDR, DECERR and LOS tokens an operation emits
(60_exceptions.md section 1, 10_state.md section 4). -/
def Obligations.CountersCountTheTokens : Prop :=
  ∀ (i : Instr) (s t : State), exec i s = .next t → i ≠ .rst → i ≠ .srst → i ≠ .clrcnt →
    i ≠ .flush true → (∀ v, i ≠ .csrw 0x02#8 v) →
    ∃ toks : List Token, Emits s t toks ∧
      t.nid.framecnt = s.nid.framecnt + BitVec.ofNat 32 (toks.countP Token.isHdr) ∧
      t.nid.decerrcnt = s.nid.decerrcnt + BitVec.ofNat 32 (toks.countP Token.isDecerr) ∧
      t.nid.loscnt = s.nid.loscnt + BitVec.ofNat 32 (toks.countP Token.isLos)

/-- No operation but CSRW, RST and SRST changes a configuration register (40_demodulator.md section 3,
20_memory.md section 3). -/
def Obligations.OnlyWritesAndResetsChangeConfiguration : Prop :=
  ∀ (i : Instr) (s t : State), exec i s = .next t → (∀ a v, i ≠ .csrw a v) → i ≠ .rst → i ≠ .srst →
    t.ctl = s.ctl

/-- DEMOD after a SAMPLE depends on DEMOD and the configuration only (40_demodulator.md section 3). -/
def Obligations.DemodNeverReadsFsyncOrNiddec : Prop :=
  ∀ (i q : Component) (s s' t t' : State), s.demod = s'.demod → s.ctl = s'.ctl →
    exec (.sample i q) s = .next t → exec (.sample i q) s' = .next t' → t.demod = t'.demod

/-- While LOCKED = 0 a SAMPLE touches nothing outside DEMOD: no dibit, no marker, no token (40_demodulator.md
section 3). -/
def Obligations.UnlockedDemodEmitsNothing : Prop :=
  ∀ (i q : Component) (s : State), s.demod.locked = false →
    ∃ t, exec (.sample i q) s = .next t ∧ t.fsync = s.fsync ∧ t.nid = s.nid ∧ t.evt = s.evt ∧
      t.ctl = s.ctl ∧ t.io = s.io

/-- DIBIT, LOSMARK, NIDDEC, SYM and LOSINJ leave DEMOD untouched (41_framesync.md section 3). -/
def Obligations.FsyncNeverTouchesDemod : Prop :=
  ∀ (d : Dibit) (conf : BitVec 8) (cause : LosCause) (s : State),
    (∃ t, exec (.dibit d conf) s = .next t ∧ t.demod = s.demod ∧
      (s.fsync.fstate ≠ .nid → ∃ toks, Emits s t toks ∧ ∀ x ∈ toks, x.isHdr = false ∧ x.isDecerr = false)) ∧
    (∃ t toks, exec (.losmark cause) s = .next t ∧ t.demod = s.demod ∧ Emits s t toks ∧
      ∀ x ∈ toks, x.isHdr = false ∧ x.isDecerr = false) ∧
    (∃ t, exec .niddec s = .next t ∧ t.demod = s.demod) ∧
    (∃ t, exec (.sym d conf) s = .next t ∧ t.demod = s.demod) ∧
    (∃ t, exec .losinj s = .next t ∧ t.demod = s.demod)

/-- Each of the six tokens has the KIND and, as one number of its fields, the DATA its table gives (R100, R101,
R102, R103, R104, R105, R106). -/
def Obligations.TokensAreLaidOutAsTheirTables : Prop :=
  (∀ (d : Dibit) (conf : BitVec 8), LaidOut (.sym d conf) 1 (d.toNat + 2 ^ 8 * conf.toNat)) ∧
  LaidOut (.los .energy) 2 1 ∧ LaidOut (.los .timing) 2 2 ∧ LaidOut (.los .injected) 2 3 ∧
  (∀ (tstamp : BitVec 32) (nac : BitVec 12) (duid : BitVec 4) (cls : BitVec 3) (p : Bool) (nerr : BitVec 4)
    (syncq : BitVec 6), LaidOut (.hdr tstamp nac duid cls p nerr syncq) 3
      (2 ^ 32 * tstamp.toNat + 2 ^ 20 * nac.toNat + 2 ^ 16 * duid.toNat + 2 ^ 13 * cls.toNat +
        2 ^ 12 * p.toNat + 2 ^ 8 * nerr.toNat + syncq.toNat)) ∧
  (∀ (d : Dibit) (ss : Bool) (conf : BitVec 8) (pos : BitVec 12), LaidOut (.pay d ss conf pos) 4
    (d.toNat + 4 * ss.toNat + 2 ^ 8 * conf.toNat + 2 ^ 16 * pos.toNat)) ∧
  (∀ pos : BitVec 12,
    LaidOut (.frameEnd .len pos) 5 (2 ^ 16 * pos.toNat) ∧
    LaidOut (.frameEnd .resync pos) 5 (1 + 2 ^ 16 * pos.toNat) ∧
    LaidOut (.frameEnd .los pos) 5 (2 + 2 ^ 16 * pos.toNat) ∧
    LaidOut (.frameEnd .flush pos) 5 (3 + 2 ^ 16 * pos.toNat)) ∧
  (∀ nid : BitVec 64, LaidOut (.decerr nid) 6 nid.toNat) ∧
  (∀ (t : Token) (s : State),
    emit t s = { s with io := { s.io with trace := s.io.trace ++ [tokenWord t] } })

/-- Every input event decodes to the operation its fields name; which one a CMD word with both low bits or none
is, is the model's choice (log entry 3) (30_encoding.md section 2, 43_control_port.md section 2). The fields
are those of R91 to R95 and, for STATUS, R224. That a CMD word with both low bits is one operation, FLUSH
with CLRCNT, and that a CMD word with no command bit is the plain write of 0x02, is the reading of the
model: log entry 3, DEDUCED. -/
def Obligations.EventsDecodeByTheirFields : Prop :=
  decode .reset = .rst ∧
  (∀ w : BitVec 32, ∃ i q : Component, decode (.sampleWord w) = .sample i q ∧
    i.toNat = w.toNat % 2 ^ 16 ∧ q.toNat = w.toNat / 2 ^ 16 ∧
    i.toInt = wrap16s (w.toNat % 2 ^ 16 : Nat) ∧ q.toInt = wrap16s (w.toNat / 2 ^ 16 : Nat)) ∧
  (∀ w : BitVec 41,
    let a : RegNum := BitVec.ofNat 8 (w.toNat / 2 ^ 32)
    let n : Nat := w.toNat % 2 ^ 32
    let v : Word32 := BitVec.ofNat 32 n
    (w.toNat < 2 ^ 40 → decode (.transaction w) = .csrr a) ∧
    (2 ^ 40 ≤ w.toNat →
      (a = 0x02#8 → decode (.transaction w) =
        if 2 ^ 31 ≤ n then .srst
        else if n % 2 = 1 then .flush (decide (n / 2 % 2 = 1))
        else if n / 2 % 2 = 1 then .clrcnt else .csrw a v) ∧
      (a = 0x03#8 → decode (.transaction w) = .statusw1c (BitVec.ofNat 5 (n / 2 ^ 8))) ∧
      (a = 0x19#8 → decode (.transaction w) =
        if n / 2 ^ 8 % 2 = 1 then .losinj else .sym (BitVec.ofNat 2 n) (BitVec.ofNat 8 (n / 2 ^ 16))) ∧
      (a ≠ 0x02#8 → a ≠ 0x03#8 → a ≠ 0x19#8 → decode (.transaction w) = .csrw a v)))

/-- The arithmetic primitives that the other statements use are those of the notation section (00_scope.md
section 6). -/
def Obligations.NotationPrimitivesAreTheSpecs : Prop :=
  (∀ (v : Int) (k : Nat), floorShr v k * 2 ^ k ≤ v ∧ v < (floorShr v k + 1) * 2 ^ k) ∧
  (∀ v lo hi : Int, lo ≤ hi → (v < lo → clamp v lo hi = lo) ∧ (hi < v → clamp v lo hi = hi) ∧
    (lo ≤ v → v ≤ hi → clamp v lo hi = v)) ∧
  (∀ v : Int, -32768 ≤ wrap16s v ∧ wrap16s v ≤ 32767 ∧ ∃ k : Int, v = wrap16s v + 65536 * k) ∧
  (∀ v : Int, (v < -32768 → sat16 v = -32768) ∧ (32767 < v → sat16 v = 32767) ∧
    (-32768 ≤ v → v ≤ 32767 → sat16 v = v)) ∧
  (∀ (w : Nat) (v : BitVec w), popcount v = ((Finset.range w).filter fun i => v.getLsbD i = true).card)
end

