-- ==== Sys2Proof/Laws/Arith.lean ====
section
/-! SUPPORT. What the arithmetic primitives can answer: the ranges of 10_state.md rule R69, and when narrowing to a
register's width is exact. -/

namespace Sys2Proof.Machine

/-- Reading back a signed value that fits the width is exact. -/
theorem toInt_ofInt_exact {w : Nat} (hw : 0 < w) {v : Int} (lo : -(2 ^ (w - 1) : Int) ≤ v)
    (hi : v < 2 ^ (w - 1)) : (BitVec.ofInt w v).toInt = v := by
  obtain ⟨n, rfl⟩ : ∃ n, w = n + 1 := ⟨w - 1, by omega⟩
  rw [BitVec.toInt_ofInt]
  simp only [Nat.add_sub_cancel] at lo hi
  have : ((2 ^ (n + 1) : Nat) : Int) = 2 * 2 ^ n := by push_cast; ring
  apply Int.bmod_eq_of_le <;> omega

/-- Reading back an unsigned value that fits the width is exact. -/
theorem toNat_ofInt_exact {w : Nat} {v : Int} (lo : 0 ≤ v) (hi : v < 2 ^ w) :
    ((BitVec.ofInt w v).toNat : Int) = v := by
  rw [BitVec.toNat_ofInt, Int.toNat_of_nonneg (Int.emod_nonneg _ (by positivity))]
  exact Int.emod_eq_of_lt lo (by exact_mod_cast hi)

theorem floorShr_nonneg {v : Int} (h : 0 ≤ v) (k : Nat) : 0 ≤ floorShr v k :=
  Int.ediv_nonneg h (by positivity)

theorem floorShr_le_self {v : Int} (h : 0 ≤ v) (k : Nat) : floorShr v k ≤ v :=
  Int.ediv_le_self _ h

theorem self_le_floorShr {v : Int} (h : v ≤ 0) (k : Nat) : v ≤ floorShr v k := by
  have hp : (0 : Int) < ((2 ^ k : Nat) : Int) := by positivity
  refine (Int.le_ediv_iff_mul_le hp).2 ?_
  nlinarith

theorem floorShr_nonpos {v : Int} (h : v ≤ 0) (k : Nat) : floorShr v k ≤ 0 := by
  have hp : (0 : Int) < ((2 ^ k : Nat) : Int) := by positivity
  have := Int.ediv_le_ediv hp h
  simpa [floorShr] using this

/-- The average never leaves the interval between the old value and the new one (rules R123 and R137). -/
theorem average_between {lo hi old new : Int} (k : Nat) (ho : lo ≤ old ∧ old ≤ hi)
    (hn : lo ≤ new ∧ new ≤ hi) : lo ≤ average old new k ∧ average old new k ≤ hi := by
  unfold average
  rcases le_total 0 (new - old) with h | h
  · have h1 := floorShr_nonneg h k
    have h2 := floorShr_le_self h k
    omega
  · have h1 := floorShr_nonpos h k
    have h2 := self_le_floorShr h k
    omega

theorem clamp_bounds {v lo hi : Int} (h : lo ≤ hi) : lo ≤ clamp v lo hi ∧ clamp v lo hi ≤ hi := by
  unfold clamp; omega

theorem wrap16s_bounds (v : Int) : -32768 ≤ wrap16s v ∧ wrap16s v ≤ 32767 := by
  unfold wrap16s
  constructor
  · exact BitVec.le_toInt (BitVec.ofInt 16 v)
  · exact Int.le_of_lt_add_one (BitVec.toInt_lt (x := BitVec.ofInt 16 v))

theorem sat16_bounds (v : Int) : -32768 ≤ sat16 v ∧ sat16 v ≤ 32767 :=
  clamp_bounds (by norm_num)

theorem narrowSum_bounds (mode : Bool) (v : Int) :
    -32768 ≤ narrowSum mode v ∧ narrowSum mode v ≤ 32767 := by
  unfold narrowSum
  split
  · exact wrap16s_bounds v
  · exact sat16_bounds v

/-- A 16-bit register holds a soft value exactly. -/
theorem toInt_narrowSum (mode : Bool) (v : Int) :
    (BitVec.ofInt 16 (narrowSum mode v)).toInt = narrowSum mode v := by
  have := narrowSum_bounds mode v
  exact toInt_ofInt_exact (by norm_num) (by norm_num; omega) (by norm_num; omega)

theorem component_bounds (x : Component) : -32768 ≤ x.toInt ∧ x.toInt ≤ 32767 := by
  constructor
  · have := BitVec.le_toInt x; simpa using this
  · have := BitVec.toInt_lt (x := x); simp at this; omega

theorem power_bounds (i q : Component) : 0 ≤ power i q ∧ power i q ≤ 2147483648 := by
  have hi := component_bounds i
  have hq := component_bounds q
  unfold power
  constructor
  · nlinarith
  · nlinarith

theorem phaseAdvance_bounds (valid : Bool) (prev phi : Phase) :
    -32768 ≤ phaseAdvance valid prev phi ∧ phaseAdvance valid prev phi ≤ 32767 := by
  unfold phaseAdvance
  split
  · exact wrap16s_bounds _
  · norm_num

theorem foff_bounds (foff : BitVec 24) : -8388608 ≤ foff.toInt ∧ foff.toInt ≤ 8388607 := by
  constructor
  · have := BitVec.le_toInt foff; simpa using this
  · have := BitVec.toInt_lt (x := foff); simp at this; omega

theorem roundedOffset_bounds (foff : BitVec 24) :
    -32768 ≤ roundedOffset foff ∧ roundedOffset foff ≤ 32768 := by
  have := foff_bounds foff
  unfold roundedOffset floorShr
  norm_num
  omega

/-- A corrected sample fits the 18 bits of the delay line, whatever FOFF holds (rule R69). -/
theorem toInt_corrected {f : Int} (hf : -32768 ≤ f ∧ f ≤ 32767) (foff : BitVec 24) :
    (BitVec.ofInt 18 (f - roundedOffset foff)).toInt = f - roundedOffset foff := by
  have := roundedOffset_bounds foff
  exact toInt_ofInt_exact (by norm_num) (by norm_num; omega) (by norm_num; omega)

/-- With FOFF in its legal range a corrected sample is in [-65535, 65534] (rule R69). -/
theorem corrected_bounds {f : Int} (hf : -32768 ≤ f ∧ f ≤ 32767) {foff : BitVec 24}
    (h : |foff.toInt| ≤ 8388352) :
    -65535 ≤ f - roundedOffset foff ∧ f - roundedOffset foff ≤ 65534 := by
  rw [abs_le] at h
  unfold roundedOffset floorShr
  norm_num
  omega

theorem offsetLimit_bounds (folim : BitVec 15) : 0 ≤ offsetLimit folim ∧ offsetLimit folim ≤ 8388352 := by
  have := folim.isLt
  unfold offsetLimit
  omega

/-- A clamped FOFF is held exactly by its 24 bits (rule R25). -/
theorem toInt_clampOffset (v : Int) (folim : BitVec 15) :
    (BitVec.ofInt 24 (clamp v (-offsetLimit folim) (offsetLimit folim))).toInt =
      clamp v (-offsetLimit folim) (offsetLimit folim) := by
  have hl := offsetLimit_bounds folim
  have := clamp_bounds (v := v) (lo := -offsetLimit folim) (hi := offsetLimit folim) (by omega)
  exact toInt_ofInt_exact (by norm_num) (by norm_num; omega) (by norm_num; omega)

theorem abs_clampOffset (v : Int) (folim : BitVec 15) :
    |(BitVec.ofInt 24 (clamp v (-offsetLimit folim) (offsetLimit folim))).toInt| ≤ offsetLimit folim := by
  have hl := offsetLimit_bounds folim
  have := clamp_bounds (v := v) (lo := -offsetLimit folim) (hi := offsetLimit folim) (by omega)
  rw [toInt_clampOffset, abs_le]
  omega

/-- The slicer error is in [-8192, 8191] for a soft value (rule R133). -/
theorem slicerError_bounds {sv : Int} (h : -32768 ≤ sv ∧ sv ≤ 32767) :
    -8192 ≤ slicerError sv ∧ slicerError sv ≤ 8191 := by
  unfold slicerError slice Config.lvl
  split
  · simp only [levelValue]; omega
  · split
    · simp only [levelValue]; omega
    · split <;> simp only [levelValue] <;> omega

/-- The accumulator after the threshold test is at most TTHR in magnitude (rule R29). -/
theorem timingAdjust_bounds (acc : Int) (tthr : BitVec 24) :
    (-1 ≤ (timingAdjust acc tthr).1 ∧ (timingAdjust acc tthr).1 ≤ 1) ∧
      |(timingAdjust acc tthr).2| ≤ tthr.toNat := by
  unfold timingAdjust
  split
  · simp
  · split
    · simp
    · simp only [abs_le]; omega

theorem tthr_bounds (tthr : BitVec 24) : tthr.toNat ≤ 16777215 := by
  have := tthr.isLt; omega

/-- TACC is held exactly by its 26 bits (rule R29). -/
theorem toInt_timingAcc (acc : Int) (tthr : BitVec 24) :
    (BitVec.ofInt 26 (timingAdjust acc tthr).2).toInt = (timingAdjust acc tthr).2 := by
  have h := (timingAdjust_bounds acc tthr).2
  have := tthr_bounds tthr
  rw [abs_le] at h
  exact toInt_ofInt_exact (by norm_num) (by norm_num; omega) (by norm_num; omega)

/-- The delay line after a shift: the new entry first, then the newest 47 old ones. -/
@[simp] theorem shiftDelay_toList (fc : Int) (dl : Vector (BitVec 18) 48) :
    (shiftDelay fc dl).toList = BitVec.ofInt 18 fc :: dl.toList.take 47 := rfl

theorem popcount_le {w : Nat} (v : BitVec w) : popcount v ≤ w := by
  unfold popcount
  exact le_trans List.countP_le_length (by simp)

/-- `dibit(a)` takes each value once (rule R142). -/
theorem levelDibit_injective (a b : Level) (h : levelDibit a = levelDibit b) : a = b := by
  revert h; cases a <;> cases b <;> decide

end Sys2Proof.Machine
end

