-- ==== Sys2Proof/Laws/Code.lean ====
section
/-! SUPPORT. The search for a codeword (42_nid_decoder.md rule R194) says what the rule says: it answers exactly when
some codeword lies within the radius; and the reduction `pmod` (00_scope.md rule R18) is linear and ends below the
degree of its divisor. -/

namespace Sys2Proof.Machine

/-! ### The search -/

theorem findMessage_some {p : BitVec 16 → Bool} {m : BitVec 16} :
    ∀ {k pre : Nat}, findMessage p k pre = some m → p m = true
  | 0, pre, h => by
    simp only [findMessage] at h
    split at h
    · cases h; assumption
    · cases h
  | k + 1, pre, h => by
    simp only [findMessage] at h
    split at h
    · next m' h' => cases h; exact findMessage_some h'
    · exact findMessage_some h

theorem findMessage_none {p : BitVec 16 → Bool} :
    ∀ {k pre : Nat}, findMessage p k pre = none →
      ∀ j, j < 2 ^ k → p (BitVec.ofNat 16 (pre * 2 ^ k + j)) = false
  | 0, pre, h, j, hj => by
    simp only [findMessage] at h
    have : j = 0 := by simpa using hj
    subst this
    split at h
    · cases h
    · next hp => simpa using hp
  | k + 1, pre, h, j, hj => by
    simp only [findMessage] at h
    split at h
    · cases h
    · next h' =>
      have e : 2 ^ (k + 1) = 2 * 2 ^ k := by ring
      rcases lt_or_ge j (2 ^ k) with hlt | hge
      · have := findMessage_none h' j hlt
        rwa [show 2 * pre * 2 ^ k = pre * 2 ^ (k + 1) by ring] at this
      · have := findMessage_none h (j - 2 ^ k) (by omega)
        rwa [show (2 * pre + 1) * 2 ^ k + (j - 2 ^ k) = pre * 2 ^ (k + 1) + j by
          rw [show (2 * pre + 1) * 2 ^ k = pre * 2 ^ (k + 1) + 2 ^ k by ring]; omega] at this

/-- What `nearest` answers is a codeword within the radius. -/
theorem nearest_some {r c : CodeWord} {t : Nat} (h : nearest r t = some c) :
    ∃ m, c = enc m ∧ popcount (r ^^^ c) ≤ t := by
  simp only [nearest, Option.map_eq_some_iff] at h
  obtain ⟨m, hm, rfl⟩ := h
  exact ⟨m, rfl, by simpa using findMessage_some hm⟩

/-- Where `nearest` answers nothing, no codeword lies within the radius. -/
theorem nearest_none {r : CodeWord} {t : Nat} (h : nearest r t = none) (m : BitVec 16) :
    t < popcount (r ^^^ enc m) := by
  simp only [nearest, Option.map_eq_none_iff] at h
  have := findMessage_none h m.toNat (by simpa using m.isLt)
  simpa using this

/-- `nearest` answers exactly when some codeword lies within the radius (rule R194). -/
theorem nearest_isSome_iff (r : CodeWord) (t : Nat) :
    (nearest r t).isSome ↔ ∃ m, popcount (r ^^^ enc m) ≤ t := by
  cases h : nearest r t with
  | some c =>
    obtain ⟨m, rfl, hm⟩ := nearest_some h
    simpa using ⟨m, hm⟩
  | none =>
    have := nearest_none h
    simp only [Option.isSome_none, Bool.false_eq_true, false_iff, not_exists, not_le]
    exact this

/-! ### The reduction -/

theorem bitlen_le_iff {a n : Nat} : bitlen a ≤ n ↔ a < 2 ^ n := by
  unfold bitlen
  split
  · next h => subst h; simp
  · next h => rw [Nat.succ_le_iff, Nat.log2_lt h]

theorem testBit_bitlen_sub_one {a : Nat} (h : a ≠ 0) : a.testBit (bitlen a - 1) = true := by
  have hb : bitlen a = Nat.log2 a + 1 := by simp [bitlen, h]
  rw [hb, Nat.add_sub_cancel]
  exact Nat.testBit_log2 h

/-- One round clears the highest bit. -/
theorem bitlen_round_lt {a g : Nat} (hg : g ≠ 0) (h : bitlen g ≤ bitlen a) :
    bitlen (a ^^^ (g <<< (bitlen a - bitlen g))) < bitlen a := by
  have hgl : 0 < bitlen g := by simp [bitlen, hg]
  have ha : a ≠ 0 := by rintro rfl; simp [bitlen] at h; omega
  have hal : 0 < bitlen a := by simp [bitlen, ha]
  suffices bitlen (a ^^^ (g <<< (bitlen a - bitlen g))) ≤ bitlen a - 1 by omega
  rw [bitlen_le_iff]
  apply Nat.lt_pow_two_of_testBit
  intro i hi
  have hag : a < 2 ^ bitlen a := bitlen_le_iff.1 le_rfl
  have hgg : g < 2 ^ bitlen g := bitlen_le_iff.1 le_rfl
  rw [Nat.testBit_xor, Nat.testBit_shiftLeft]
  rcases Nat.eq_or_lt_of_le hi with rfl | hlt
  · have e : bitlen a - 1 - (bitlen a - bitlen g) = bitlen g - 1 := by omega
    rw [testBit_bitlen_sub_one ha, e, testBit_bitlen_sub_one hg]
    simp; omega
  · have h1 : a.testBit i = false :=
      Nat.testBit_lt_two_pow (lt_of_lt_of_le hag (Nat.pow_le_pow_right (by norm_num) (by omega)))
    have h2 : g.testBit (i - (bitlen a - bitlen g)) = false :=
      Nat.testBit_lt_two_pow (lt_of_lt_of_le hgg (Nat.pow_le_pow_right (by norm_num) (by omega)))
    simp [h1, h2]

theorem pmodRounds_bitlen {g : Nat} (hg : g ≠ 0) :
    ∀ fuel a, bitlen a ≤ fuel → bitlen (pmodRounds g fuel a) < bitlen g
  | 0, a, h => by
    have : 0 < bitlen g := by simp [bitlen, hg]
    simp only [pmodRounds]; omega
  | fuel + 1, a, h => by
    simp only [pmodRounds]
    split
    · next hle => exact pmodRounds_bitlen hg fuel _ (by have := bitlen_round_lt hg hle; omega)
    · omega

/-- A remainder is shorter than the divisor. -/
theorem bitlen_pmod_lt {g : Nat} (hg : g ≠ 0) (a : Nat) : bitlen (pmod a g) < bitlen g :=
  pmodRounds_bitlen hg _ a le_rfl

/-- More rounds than bits change nothing. -/
theorem pmodRounds_fuel {g : Nat} (hg : g ≠ 0) :
    ∀ fuel a, bitlen a ≤ fuel → pmodRounds g fuel a = pmod a g := by
  suffices ∀ n fuel a, bitlen a ≤ n → bitlen a ≤ fuel → pmodRounds g fuel a = pmodRounds g n a from
    fun fuel a h => this (bitlen a) fuel a le_rfl h
  intro n
  induction n with
  | zero =>
    intro fuel a h _
    have : 0 < bitlen g := by simp [bitlen, hg]
    cases fuel with
    | zero => rfl
    | succ f => simp only [pmodRounds]; rw [if_neg (by omega)]
  | succ n ih =>
    intro fuel a h hf
    cases fuel with
    | zero =>
      have : 0 < bitlen g := by simp [bitlen, hg]
      simp only [pmodRounds]; rw [if_neg (by omega)]
    | succ f =>
      simp only [pmodRounds]
      split
      · next hle =>
        have := bitlen_round_lt hg hle
        exact ih _ _ (by omega) (by omega)
      · rfl

/-- One round of the reduction of rule R18. -/
theorem pmod_round {a g : Nat} (hg : g ≠ 0) (h : bitlen g ≤ bitlen a) :
    pmod a g = pmod (a ^^^ (g <<< (bitlen a - bitlen g))) g := by
  have hlt := bitlen_round_lt hg h
  obtain ⟨n, hn⟩ : ∃ n, bitlen a = n + 1 := ⟨bitlen a - 1, by omega⟩
  rw [pmod, hn]
  simp only [pmodRounds]
  rw [if_pos h, ← hn]
  exact pmodRounds_fuel hg _ _ (by omega)

/-- A number shorter than the divisor is its own remainder. -/
theorem pmod_of_short {a g : Nat} (h : bitlen a < bitlen g) : pmod a g = a := by
  unfold pmod
  cases hb : bitlen a with
  | zero => rfl
  | succ n => simp only [pmodRounds]; rw [if_neg (by omega)]

theorem bitlen_xor_le {a b n : Nat} (ha : bitlen a ≤ n) (hb : bitlen b ≤ n) : bitlen (a ^^^ b) ≤ n := by
  rw [bitlen_le_iff] at *
  exact Nat.xor_lt_two_pow ha hb

/-- Where only one of two numbers reaches bit `n`, their xor reaches it. -/
theorem bitlen_xor_of_lt {a b : Nat} (h : bitlen b < bitlen a) : bitlen (a ^^^ b) = bitlen a := by
  have ha : a ≠ 0 := by rintro rfl; simp [bitlen] at h
  apply le_antisymm (bitlen_xor_le le_rfl h.le)
  by_contra hc
  have h1 : bitlen (a ^^^ b) ≤ bitlen a - 1 := by omega
  have h2 := Nat.testBit_lt_two_pow (bitlen_le_iff.1 h1)
  have h3 := Nat.testBit_lt_two_pow (bitlen_le_iff.1 (show bitlen b ≤ bitlen a - 1 by omega))
  rw [Nat.testBit_xor, testBit_bitlen_sub_one ha, h3] at h2
  simp at h2

/-- Where both reach bit `n` and no further, their xor does not. -/
theorem bitlen_xor_lt {a b : Nat} (h : bitlen b = bitlen a) (ha : a ≠ 0) : bitlen (a ^^^ b) < bitlen a := by
  have hal : 0 < bitlen a := by simp [bitlen, ha]
  have hb : b ≠ 0 := by rintro rfl; simp [bitlen] at h; exact absurd h (by simp [ha])
  suffices bitlen (a ^^^ b) ≤ bitlen a - 1 by omega
  rw [bitlen_le_iff]
  apply Nat.lt_pow_two_of_testBit
  intro i hi
  rw [Nat.testBit_xor]
  rcases Nat.eq_or_lt_of_le hi with rfl | hlt
  · rw [testBit_bitlen_sub_one ha, ← h, testBit_bitlen_sub_one hb]; rfl
  · have h1 : a.testBit i = false := Nat.testBit_lt_two_pow
      (lt_of_lt_of_le (bitlen_le_iff.1 le_rfl) (Nat.pow_le_pow_right (by norm_num) (by omega)))
    have h2 : b.testBit i = false := Nat.testBit_lt_two_pow
      (lt_of_lt_of_le (bitlen_le_iff.1 le_rfl) (Nat.pow_le_pow_right (by norm_num) (by omega)))
    simp [h1, h2]

theorem xor_round (a b c : Nat) : (a ^^^ c) ^^^ (b ^^^ c) = a ^^^ b := by
  apply Nat.eq_of_testBit_eq; intro i
  simp only [Nat.testBit_xor]
  cases a.testBit i <;> cases b.testBit i <;> cases c.testBit i <;> rfl

theorem xor_right_swap (a b c : Nat) : (a ^^^ c) ^^^ b = (a ^^^ b) ^^^ c := by
  rw [Nat.xor_assoc, Nat.xor_comm c b, ← Nat.xor_assoc]

/-- The reduction is linear over GF(2). -/
theorem pmod_xor {g : Nat} (hg : g ≠ 0) (a b : Nat) : pmod (a ^^^ b) g = pmod a g ^^^ pmod b g := by
  suffices ∀ n a b, bitlen a ≤ n → bitlen b ≤ n → pmod (a ^^^ b) g = pmod a g ^^^ pmod b g from
    this (max (bitlen a) (bitlen b)) a b (le_max_left _ _) (le_max_right _ _)
  intro n
  induction n with
  | zero =>
    intro a b ha hb
    have hz : 0 < bitlen g := by simp [bitlen, hg]
    rw [pmod_of_short (by have := bitlen_xor_le ha hb; omega), pmod_of_short (by omega),
      pmod_of_short (by omega)]
  | succ n ih =>
    -- the case in which `a` is the longer one
    have longer : ∀ a b, bitlen a = n + 1 → bitlen b ≤ n → bitlen g ≤ n + 1 →
        pmod (a ^^^ b) g = pmod a g ^^^ pmod b g := by
      intro a b ha hb hgn
      have hx : bitlen (a ^^^ b) = bitlen a := bitlen_xor_of_lt (by omega)
      have hr := bitlen_round_lt (a := a) hg (by omega)
      rw [pmod_round hg (a := a ^^^ b) (by omega), pmod_round hg (a := a) (by omega), hx,
        ← xor_right_swap]
      exact ih _ _ (by omega) hb
    intro a b ha hb
    by_cases hgn : bitlen g ≤ n + 1
    · rcases Nat.lt_or_ge (bitlen a) (n + 1) with ha' | ha' <;>
        rcases Nat.lt_or_ge (bitlen b) (n + 1) with hb' | hb'
      · exact ih a b (by omega) (by omega)
      · rw [Nat.xor_comm a b, Nat.xor_comm (pmod a g)]
        exact longer b a (by omega) (by omega) hgn
      · exact longer a b (by omega) (by omega) hgn
      · have ea : bitlen a = n + 1 := by omega
        have eb : bitlen b = n + 1 := by omega
        have hra := bitlen_round_lt (a := a) hg (by omega)
        have hrb := bitlen_round_lt (a := b) hg (by omega)
        rw [pmod_round hg (a := a) (by omega), pmod_round hg (a := b) (by omega), ea, eb,
          ← xor_round a b (g <<< (n + 1 - bitlen g))]
        exact ih _ _ (by rw [ea] at hra; omega) (by rw [eb] at hrb; omega)
    · have := bitlen_xor_le ha hb
      rw [pmod_of_short (by omega), pmod_of_short (by omega), pmod_of_short (by omega)]

theorem bitlen_gpoly : bitlen Config.gpoly = 48 := by decide

theorem gpoly_ne_zero : Config.gpoly ≠ 0 := by decide

/-- The codeword of rule R192 as a number: it fits its 63 bits. -/
theorem enc_toNat (m : BitVec 16) :
    (enc m).toNat = (m.toNat <<< 47) ^^^ pmod (m.toNat <<< 47) Config.gpoly := by
  have hm : m.toNat < 2 ^ 16 := m.isLt
  have h1 : m.toNat <<< 47 < 2 ^ 63 := by rw [Nat.shiftLeft_eq]; omega
  have h2 : pmod (m.toNat <<< 47) Config.gpoly < 2 ^ 47 := by
    have := bitlen_pmod_lt gpoly_ne_zero (m.toNat <<< 47)
    rw [bitlen_gpoly] at this
    exact bitlen_le_iff.1 (by omega)
  have h3 : (m.toNat <<< 47) ^^^ pmod (m.toNat <<< 47) Config.gpoly < 2 ^ 63 :=
    Nat.xor_lt_two_pow h1 (by omega)
  rw [enc, BitVec.toNat_ofNat, Nat.mod_eq_of_lt h3]

end Sys2Proof.Machine
end

