-- ==== Sys2Proof/Laws/State.lean ====
section
/-! SUPPORT. One small lemma per field per update: what each named operation writes and what it leaves alone. -/

namespace Sys2Proof.Machine

/-! ### emit, report and the sticky bits -/

@[simp] theorem emit_demod (t : Token) (s : State) : (emit t s).demod = s.demod := rfl
@[simp] theorem emit_fsync (t : Token) (s : State) : (emit t s).fsync = s.fsync := rfl
@[simp] theorem emit_nid (t : Token) (s : State) : (emit t s).nid = s.nid := rfl
@[simp] theorem emit_evt (t : Token) (s : State) : (emit t s).evt = s.evt := rfl
@[simp] theorem emit_ctl (t : Token) (s : State) : (emit t s).ctl = s.ctl := rfl
@[simp] theorem emit_io_script (t : Token) (s : State) : (emit t s).io.script = s.io.script := rfl
@[simp] theorem emit_io_trace (t : Token) (s : State) : (emit t s).io.trace = s.io.trace ++ [tokenWord t] :=
    rfl
@[simp] theorem emit_io_rdata (t : Token) (s : State) : (emit t s).io.rdata = s.io.rdata := rfl
@[simp] theorem setEvent_demod (e : Event) (s : State) : (setEvent e s).demod = s.demod := rfl
@[simp] theorem setEvent_fsync (e : Event) (s : State) : (setEvent e s).fsync = s.fsync := rfl
@[simp] theorem setEvent_nid (e : Event) (s : State) : (setEvent e s).nid = s.nid := rfl
@[simp] theorem setEvent_ctl (e : Event) (s : State) : (setEvent e s).ctl = s.ctl := rfl
@[simp] theorem setEvent_io (e : Event) (s : State) : (setEvent e s).io = s.io := rfl
@[simp] theorem setEvent_evt (e : Event) (s : State) : (setEvent e s).evt = s.evt ||| eventMask e := rfl
@[simp] theorem clearEvents_demod (clr : BitVec 5) (s : State) : (clearEvents clr s).demod = s.demod := rfl
@[simp] theorem clearEvents_fsync (clr : BitVec 5) (s : State) : (clearEvents clr s).fsync = s.fsync := rfl
@[simp] theorem clearEvents_nid (clr : BitVec 5) (s : State) : (clearEvents clr s).nid = s.nid := rfl
@[simp] theorem clearEvents_ctl (clr : BitVec 5) (s : State) : (clearEvents clr s).ctl = s.ctl := rfl
@[simp] theorem clearEvents_io (clr : BitVec 5) (s : State) : (clearEvents clr s).io = s.io := rfl
@[simp] theorem clearEvents_evt (clr : BitVec 5) (s : State) : (clearEvents clr s).evt = s.evt &&& ~~~clr :=
    rfl
@[simp] theorem report_demod (c : Condition) (s : State) : (report c s).demod = s.demod := rfl
@[simp] theorem report_fsync (c : Condition) (s : State) : (report c s).fsync = s.fsync := rfl
@[simp] theorem report_ctl (c : Condition) (s : State) : (report c s).ctl = s.ctl := rfl
@[simp] theorem report_io (c : Condition) (s : State) : (report c s).io = s.io := rfl
@[simp] theorem report_evt (c : Condition) (s : State) : (report c s).evt = s.evt ||| eventMask (conditionEvent c) :=
    rfl
@[simp] theorem report_nid (c : Condition) (s : State) : (report c s).nid = countCondition c s.nid := rfl
@[simp] theorem controlError_demod (s : State) : (controlError s).demod = s.demod := rfl
@[simp] theorem controlError_fsync (s : State) : (controlError s).fsync = s.fsync := rfl
@[simp] theorem controlError_nid (s : State) : (controlError s).nid = s.nid := rfl
@[simp] theorem controlError_ctl (s : State) : (controlError s).ctl = s.ctl := rfl
@[simp] theorem controlError_io (s : State) : (controlError s).io = s.io := rfl
@[simp] theorem controlError_evt (s : State) : (controlError s).evt = s.evt ||| 0b10000#5 := rfl

/-! ### The initialisations and the ports -/

@[simp] theorem resetBlock_demod (s : State) : (resetBlock s).demod = Demod.reset := rfl
@[simp] theorem resetBlock_fsync (s : State) : (resetBlock s).fsync = Fsync.reset := rfl
@[simp] theorem resetBlock_nid (s : State) : (resetBlock s).nid = Nid.reset := rfl
@[simp] theorem resetBlock_evt (s : State) : (resetBlock s).evt = 0#5 := rfl
@[simp] theorem resetBlock_ctl (s : State) : (resetBlock s).ctl = Ctl.reset := rfl
@[simp] theorem resetBlock_io (s : State) : (resetBlock s).io = s.io := rfl
@[simp] theorem clearCounters_demod (s : State) : (clearCounters s).demod = s.demod := rfl
@[simp] theorem clearCounters_fsync (s : State) : (clearCounters s).fsync = s.fsync := rfl
@[simp] theorem clearCounters_evt (s : State) : (clearCounters s).evt = s.evt := rfl
@[simp] theorem clearCounters_ctl (s : State) : (clearCounters s).ctl = s.ctl := rfl
@[simp] theorem clearCounters_io (s : State) : (clearCounters s).io = s.io := rfl
@[simp] theorem clearCounters_nid_lastnid (s : State) : (clearCounters s).nid.lastnid = s.nid.lastnid := rfl
@[simp] theorem clearCounters_nid_decerrcnt (s : State) : (clearCounters s).nid.decerrcnt = 0#32 := rfl
@[simp] theorem clearCounters_nid_framecnt (s : State) : (clearCounters s).nid.framecnt = 0#32 := rfl
@[simp] theorem clearCounters_nid_loscnt (s : State) : (clearCounters s).nid.loscnt = 0#32 := rfl
@[simp] theorem clearCounters_nid_synccnt (s : State) : (clearCounters s).nid.synccnt = 0#32 := rfl
@[simp] theorem returnWord_demod (v : BitVec 32) (s : State) : (returnWord v s).demod = s.demod := rfl
@[simp] theorem returnWord_fsync (v : BitVec 32) (s : State) : (returnWord v s).fsync = s.fsync := rfl
@[simp] theorem returnWord_nid (v : BitVec 32) (s : State) : (returnWord v s).nid = s.nid := rfl
@[simp] theorem returnWord_evt (v : BitVec 32) (s : State) : (returnWord v s).evt = s.evt := rfl
@[simp] theorem returnWord_ctl (v : BitVec 32) (s : State) : (returnWord v s).ctl = s.ctl := rfl
@[simp] theorem returnWord_io_script (v : BitVec 32) (s : State) : (returnWord v s).io.script = s.io.script :=
    rfl
@[simp] theorem returnWord_io_trace (v : BitVec 32) (s : State) : (returnWord v s).io.trace = s.io.trace :=
    rfl
@[simp] theorem returnWord_io_rdata (v : BitVec 32) (s : State) : (returnWord v s).io.rdata = s.io.rdata ++ [v] :=
    rfl
@[simp] theorem present_demod (ev : InEvent) (s : State) : (present ev s).demod = s.demod := rfl
@[simp] theorem present_fsync (ev : InEvent) (s : State) : (present ev s).fsync = s.fsync := rfl
@[simp] theorem present_nid (ev : InEvent) (s : State) : (present ev s).nid = s.nid := rfl
@[simp] theorem present_evt (ev : InEvent) (s : State) : (present ev s).evt = s.evt := rfl
@[simp] theorem present_ctl (ev : InEvent) (s : State) : (present ev s).ctl = s.ctl := rfl
@[simp] theorem present_io_script (ev : InEvent) (s : State) : (present ev s).io.script = ev :: s.io.script :=
    rfl
@[simp] theorem present_io_trace (ev : InEvent) (s : State) : (present ev s).io.trace = s.io.trace := rfl
@[simp] theorem present_io_rdata (ev : InEvent) (s : State) : (present ev s).io.rdata = s.io.rdata := rfl
@[simp] theorem closeFrame_demod (r : EndReason) (s : State) : (closeFrame r s).demod = s.demod :=
    by
  unfold closeFrame; split <;> rfl
@[simp] theorem closeFrame_fsync (r : EndReason) (s : State) : (closeFrame r s).fsync = s.fsync :=
    by
  unfold closeFrame; split <;> rfl
@[simp] theorem closeFrame_nid (r : EndReason) (s : State) : (closeFrame r s).nid = s.nid :=
    by
  unfold closeFrame; split <;> rfl
@[simp] theorem closeFrame_evt (r : EndReason) (s : State) : (closeFrame r s).evt = s.evt :=
    by
  unfold closeFrame; split <;> rfl
@[simp] theorem closeFrame_ctl (r : EndReason) (s : State) : (closeFrame r s).ctl = s.ctl :=
    by
  unfold closeFrame; split <;> rfl
@[simp] theorem closeFrame_io_script (r : EndReason) (s : State) : (closeFrame r s).io.script = s.io.script :=
    by
  unfold closeFrame; split <;> rfl
@[simp] theorem closeFrame_io_rdata (r : EndReason) (s : State) : (closeFrame r s).io.rdata = s.io.rdata :=
    by
  unfold closeFrame; split <;> rfl
@[simp] theorem flushBlock_nid (s : State) : (flushBlock s).nid = s.nid := closeFrame_nid .flush s
@[simp] theorem flushBlock_evt (s : State) : (flushBlock s).evt = s.evt := closeFrame_evt .flush s
@[simp] theorem flushBlock_ctl (s : State) : (flushBlock s).ctl = s.ctl := closeFrame_ctl .flush s
@[simp] theorem flushBlock_fsync (s : State) : (flushBlock s).fsync = Fsync.reset := rfl
theorem flushBlock_demod (s : State) :
    (flushBlock s).demod = { Demod.reset with tsamp := s.demod.tsamp, tcnt := s.ctl.sps } := by
  simp [flushBlock]
@[simp] theorem flushBlock_io (s : State) : (flushBlock s).io = (closeFrame .flush s).io := rfl

/-! ### DEMOD updates -/

@[simp] theorem countSample_fsync (s : State) : (countSample s).fsync = s.fsync := rfl
@[simp] theorem countSample_nid (s : State) : (countSample s).nid = s.nid := rfl
@[simp] theorem countSample_evt (s : State) : (countSample s).evt = s.evt := rfl
@[simp] theorem countSample_ctl (s : State) : (countSample s).ctl = s.ctl := rfl
@[simp] theorem countSample_io (s : State) : (countSample s).io = s.io := rfl
@[simp] theorem countSample_demod_tsamp (s : State) : (countSample s).demod.tsamp = s.demod.tsamp + 1 := rfl
@[simp] theorem countSample_demod_energy (s : State) : (countSample s).demod.energy = s.demod.energy := rfl
@[simp] theorem countSample_demod_php (s : State) : (countSample s).demod.php = s.demod.php := rfl
@[simp] theorem countSample_demod_phv (s : State) : (countSample s).demod.phv = s.demod.phv := rfl
@[simp] theorem countSample_demod_foff (s : State) : (countSample s).demod.foff = s.demod.foff := rfl
@[simp] theorem countSample_demod_dl (s : State) : (countSample s).demod.dl = s.demod.dl := rfl
@[simp] theorem countSample_demod_tcnt (s : State) : (countSample s).demod.tcnt = s.demod.tcnt := rfl
@[simp] theorem countSample_demod_sprev (s : State) : (countSample s).demod.sprev = s.demod.sprev := rfl
@[simp] theorem countSample_demod_svalid (s : State) : (countSample s).demod.svalid = s.demod.svalid := rfl
@[simp] theorem countSample_demod_tacc (s : State) : (countSample s).demod.tacc = s.demod.tacc := rfl
@[simp] theorem countSample_demod_eyeavg (s : State) : (countSample s).demod.eyeavg = s.demod.eyeavg := rfl
@[simp] theorem countSample_demod_locked (s : State) : (countSample s).demod.locked = s.demod.locked := rfl
@[simp] theorem countSample_demod_acqcnt (s : State) : (countSample s).demod.acqcnt = s.demod.acqcnt := rfl
@[simp] theorem updateEnergy_fsync (i q : Component) (s : State) : (updateEnergy i q s).fsync = s.fsync := rfl
@[simp] theorem updateEnergy_nid (i q : Component) (s : State) : (updateEnergy i q s).nid = s.nid := rfl
@[simp] theorem updateEnergy_evt (i q : Component) (s : State) : (updateEnergy i q s).evt = s.evt := rfl
@[simp] theorem updateEnergy_ctl (i q : Component) (s : State) : (updateEnergy i q s).ctl = s.ctl := rfl
@[simp] theorem updateEnergy_io (i q : Component) (s : State) : (updateEnergy i q s).io = s.io := rfl
@[simp] theorem updateEnergy_demod_tsamp (i q : Component) (s : State) : (updateEnergy i q s).demod.tsamp = s.demod.tsamp :=
    rfl
@[simp] theorem updateEnergy_demod_energy (i q : Component) (s : State) : (updateEnergy i q s).demod.energy = BitVec.ofInt 32 (average s.demod.energy.toNat (power i q) s.ctl.enshift.toNat) :=
    rfl
@[simp] theorem updateEnergy_demod_php (i q : Component) (s : State) : (updateEnergy i q s).demod.php = s.demod.php :=
    rfl
@[simp] theorem updateEnergy_demod_phv (i q : Component) (s : State) : (updateEnergy i q s).demod.phv = s.demod.phv :=
    rfl
@[simp] theorem updateEnergy_demod_foff (i q : Component) (s : State) : (updateEnergy i q s).demod.foff = s.demod.foff :=
    rfl
@[simp] theorem updateEnergy_demod_dl (i q : Component) (s : State) : (updateEnergy i q s).demod.dl = s.demod.dl :=
    rfl
@[simp] theorem updateEnergy_demod_tcnt (i q : Component) (s : State) : (updateEnergy i q s).demod.tcnt = s.demod.tcnt :=
    rfl
@[simp] theorem updateEnergy_demod_sprev (i q : Component) (s : State) : (updateEnergy i q s).demod.sprev = s.demod.sprev :=
    rfl
@[simp] theorem updateEnergy_demod_svalid (i q : Component) (s : State) : (updateEnergy i q s).demod.svalid = s.demod.svalid :=
    rfl
@[simp] theorem updateEnergy_demod_tacc (i q : Component) (s : State) : (updateEnergy i q s).demod.tacc = s.demod.tacc :=
    rfl
@[simp] theorem updateEnergy_demod_eyeavg (i q : Component) (s : State) : (updateEnergy i q s).demod.eyeavg = s.demod.eyeavg :=
    rfl
@[simp] theorem updateEnergy_demod_locked (i q : Component) (s : State) : (updateEnergy i q s).demod.locked = s.demod.locked :=
    rfl
@[simp] theorem updateEnergy_demod_acqcnt (i q : Component) (s : State) : (updateEnergy i q s).demod.acqcnt = s.demod.acqcnt :=
    rfl
@[simp] theorem latchPhase_fsync (phi : Phase) (s : State) : (latchPhase phi s).fsync = s.fsync := rfl
@[simp] theorem latchPhase_nid (phi : Phase) (s : State) : (latchPhase phi s).nid = s.nid := rfl
@[simp] theorem latchPhase_evt (phi : Phase) (s : State) : (latchPhase phi s).evt = s.evt := rfl
@[simp] theorem latchPhase_ctl (phi : Phase) (s : State) : (latchPhase phi s).ctl = s.ctl := rfl
@[simp] theorem latchPhase_io (phi : Phase) (s : State) : (latchPhase phi s).io = s.io := rfl
@[simp] theorem latchPhase_demod_tsamp (phi : Phase) (s : State) : (latchPhase phi s).demod.tsamp = s.demod.tsamp :=
    rfl
@[simp] theorem latchPhase_demod_energy (phi : Phase) (s : State) : (latchPhase phi s).demod.energy = s.demod.energy :=
    rfl
@[simp] theorem latchPhase_demod_php (phi : Phase) (s : State) : (latchPhase phi s).demod.php = phi := rfl
@[simp] theorem latchPhase_demod_phv (phi : Phase) (s : State) : (latchPhase phi s).demod.phv = true := rfl
@[simp] theorem latchPhase_demod_foff (phi : Phase) (s : State) : (latchPhase phi s).demod.foff = s.demod.foff :=
    rfl
@[simp] theorem latchPhase_demod_dl (phi : Phase) (s : State) : (latchPhase phi s).demod.dl = s.demod.dl :=
    rfl
@[simp] theorem latchPhase_demod_tcnt (phi : Phase) (s : State) : (latchPhase phi s).demod.tcnt = s.demod.tcnt :=
    rfl
@[simp] theorem latchPhase_demod_sprev (phi : Phase) (s : State) : (latchPhase phi s).demod.sprev = s.demod.sprev :=
    rfl
@[simp] theorem latchPhase_demod_svalid (phi : Phase) (s : State) : (latchPhase phi s).demod.svalid = s.demod.svalid :=
    rfl
@[simp] theorem latchPhase_demod_tacc (phi : Phase) (s : State) : (latchPhase phi s).demod.tacc = s.demod.tacc :=
    rfl
@[simp] theorem latchPhase_demod_eyeavg (phi : Phase) (s : State) : (latchPhase phi s).demod.eyeavg = s.demod.eyeavg :=
    rfl
@[simp] theorem latchPhase_demod_locked (phi : Phase) (s : State) : (latchPhase phi s).demod.locked = s.demod.locked :=
    rfl
@[simp] theorem latchPhase_demod_acqcnt (phi : Phase) (s : State) : (latchPhase phi s).demod.acqcnt = s.demod.acqcnt :=
    rfl
@[simp] theorem coarseTrack_fsync (f : Int) (s : State) : (coarseTrack f s).fsync = s.fsync :=
    by
  unfold coarseTrack; split <;> rfl
@[simp] theorem coarseTrack_nid (f : Int) (s : State) : (coarseTrack f s).nid = s.nid :=
    by
  unfold coarseTrack; split <;> rfl
@[simp] theorem coarseTrack_evt (f : Int) (s : State) : (coarseTrack f s).evt = s.evt :=
    by
  unfold coarseTrack; split <;> rfl
@[simp] theorem coarseTrack_ctl (f : Int) (s : State) : (coarseTrack f s).ctl = s.ctl :=
    by
  unfold coarseTrack; split <;> rfl
@[simp] theorem coarseTrack_io (f : Int) (s : State) : (coarseTrack f s).io = s.io :=
    by
  unfold coarseTrack; split <;> rfl
/-- FOFF changes with a signal and without lock only (rule R128). -/
theorem coarseTrack_demod_foff (f : Int) (s : State) : (coarseTrack f s).demod.foff =
    if sigPresent s && !s.demod.locked then coarseOffset s.demod.foff f s.ctl.acq s.ctl.folim
    else s.demod.foff := by
  unfold coarseTrack
  split <;> rfl
@[simp] theorem coarseTrack_demod_tsamp (f : Int) (s : State) : (coarseTrack f s).demod.tsamp = s.demod.tsamp :=
    by
  unfold coarseTrack; split <;> rfl
@[simp] theorem coarseTrack_demod_energy (f : Int) (s : State) : (coarseTrack f s).demod.energy = s.demod.energy :=
    by
  unfold coarseTrack; split <;> rfl
@[simp] theorem coarseTrack_demod_php (f : Int) (s : State) : (coarseTrack f s).demod.php = s.demod.php :=
    by
  unfold coarseTrack; split <;> rfl
@[simp] theorem coarseTrack_demod_phv (f : Int) (s : State) : (coarseTrack f s).demod.phv = s.demod.phv :=
    by
  unfold coarseTrack; split <;> rfl
@[simp] theorem coarseTrack_demod_dl (f : Int) (s : State) : (coarseTrack f s).demod.dl = s.demod.dl :=
    by
  unfold coarseTrack; split <;> rfl
@[simp] theorem coarseTrack_demod_tcnt (f : Int) (s : State) : (coarseTrack f s).demod.tcnt = s.demod.tcnt :=
    by
  unfold coarseTrack; split <;> rfl
@[simp] theorem coarseTrack_demod_sprev (f : Int) (s : State) : (coarseTrack f s).demod.sprev = s.demod.sprev :=
    by
  unfold coarseTrack; split <;> rfl
@[simp] theorem coarseTrack_demod_svalid (f : Int) (s : State) : (coarseTrack f s).demod.svalid = s.demod.svalid :=
    by
  unfold coarseTrack; split <;> rfl
@[simp] theorem coarseTrack_demod_tacc (f : Int) (s : State) : (coarseTrack f s).demod.tacc = s.demod.tacc :=
    by
  unfold coarseTrack; split <;> rfl
@[simp] theorem coarseTrack_demod_eyeavg (f : Int) (s : State) : (coarseTrack f s).demod.eyeavg = s.demod.eyeavg :=
    by
  unfold coarseTrack; split <;> rfl
@[simp] theorem coarseTrack_demod_locked (f : Int) (s : State) : (coarseTrack f s).demod.locked = s.demod.locked :=
    by
  unfold coarseTrack; split <;> rfl
@[simp] theorem coarseTrack_demod_acqcnt (f : Int) (s : State) : (coarseTrack f s).demod.acqcnt = s.demod.acqcnt :=
    by
  unfold coarseTrack; split <;> rfl
@[simp] theorem pushDelay_fsync (f : Int) (s : State) : (pushDelay f s).fsync = s.fsync := rfl
@[simp] theorem pushDelay_nid (f : Int) (s : State) : (pushDelay f s).nid = s.nid := rfl
@[simp] theorem pushDelay_evt (f : Int) (s : State) : (pushDelay f s).evt = s.evt := rfl
@[simp] theorem pushDelay_ctl (f : Int) (s : State) : (pushDelay f s).ctl = s.ctl := rfl
@[simp] theorem pushDelay_io (f : Int) (s : State) : (pushDelay f s).io = s.io := rfl
@[simp] theorem pushDelay_demod_tsamp (f : Int) (s : State) : (pushDelay f s).demod.tsamp = s.demod.tsamp :=
    rfl
@[simp] theorem pushDelay_demod_energy (f : Int) (s : State) : (pushDelay f s).demod.energy = s.demod.energy :=
    rfl
@[simp] theorem pushDelay_demod_php (f : Int) (s : State) : (pushDelay f s).demod.php = s.demod.php := rfl
@[simp] theorem pushDelay_demod_phv (f : Int) (s : State) : (pushDelay f s).demod.phv = s.demod.phv := rfl
@[simp] theorem pushDelay_demod_foff (f : Int) (s : State) : (pushDelay f s).demod.foff = s.demod.foff := rfl
@[simp] theorem pushDelay_demod_dl (f : Int) (s : State) : (pushDelay f s).demod.dl = shiftDelay (f - roundedOffset s.demod.foff) s.demod.dl :=
    rfl
@[simp] theorem pushDelay_demod_tcnt (f : Int) (s : State) : (pushDelay f s).demod.tcnt = s.demod.tcnt := rfl
@[simp] theorem pushDelay_demod_sprev (f : Int) (s : State) : (pushDelay f s).demod.sprev = s.demod.sprev :=
    rfl
@[simp] theorem pushDelay_demod_svalid (f : Int) (s : State) : (pushDelay f s).demod.svalid = s.demod.svalid :=
    rfl
@[simp] theorem pushDelay_demod_tacc (f : Int) (s : State) : (pushDelay f s).demod.tacc = s.demod.tacc := rfl
@[simp] theorem pushDelay_demod_eyeavg (f : Int) (s : State) : (pushDelay f s).demod.eyeavg = s.demod.eyeavg :=
    rfl
@[simp] theorem pushDelay_demod_locked (f : Int) (s : State) : (pushDelay f s).demod.locked = s.demod.locked :=
    rfl
@[simp] theorem pushDelay_demod_acqcnt (f : Int) (s : State) : (pushDelay f s).demod.acqcnt = s.demod.acqcnt :=
    rfl
@[simp] theorem updateTiming_fsync (sv mv : Int) (s : State) : (updateTiming sv mv s).fsync = s.fsync := rfl
@[simp] theorem updateTiming_nid (sv mv : Int) (s : State) : (updateTiming sv mv s).nid = s.nid := rfl
@[simp] theorem updateTiming_evt (sv mv : Int) (s : State) : (updateTiming sv mv s).evt = s.evt := rfl
@[simp] theorem updateTiming_ctl (sv mv : Int) (s : State) : (updateTiming sv mv s).ctl = s.ctl := rfl
@[simp] theorem updateTiming_io (sv mv : Int) (s : State) : (updateTiming sv mv s).io = s.io := rfl
@[simp] theorem updateTiming_demod_tsamp (sv mv : Int) (s : State) : (updateTiming sv mv s).demod.tsamp = s.demod.tsamp :=
    rfl
@[simp] theorem updateTiming_demod_energy (sv mv : Int) (s : State) : (updateTiming sv mv s).demod.energy = s.demod.energy :=
    rfl
@[simp] theorem updateTiming_demod_php (sv mv : Int) (s : State) : (updateTiming sv mv s).demod.php = s.demod.php :=
    rfl
@[simp] theorem updateTiming_demod_phv (sv mv : Int) (s : State) : (updateTiming sv mv s).demod.phv = s.demod.phv :=
    rfl
@[simp] theorem updateTiming_demod_foff (sv mv : Int) (s : State) : (updateTiming sv mv s).demod.foff = s.demod.foff :=
    rfl
@[simp] theorem updateTiming_demod_dl (sv mv : Int) (s : State) : (updateTiming sv mv s).demod.dl = s.demod.dl :=
    rfl
@[simp] theorem updateTiming_demod_tcnt (sv mv : Int) (s : State) : (updateTiming sv mv s).demod.tcnt = BitVec.ofInt 6 (s.ctl.sps.toNat + (timingAdjust (s.demod.tacc.toInt + timingError s.demod.svalid s.demod.sprev sv mv) s.ctl.tthr).1) :=
    rfl
@[simp] theorem updateTiming_demod_sprev (sv mv : Int) (s : State) : (updateTiming sv mv s).demod.sprev = BitVec.ofInt 16 sv :=
    rfl
@[simp] theorem updateTiming_demod_svalid (sv mv : Int) (s : State) : (updateTiming sv mv s).demod.svalid = true :=
    rfl
@[simp] theorem updateTiming_demod_tacc (sv mv : Int) (s : State) : (updateTiming sv mv s).demod.tacc = BitVec.ofInt 26 (timingAdjust (s.demod.tacc.toInt + timingError s.demod.svalid s.demod.sprev sv mv) s.ctl.tthr).2 :=
    rfl
@[simp] theorem updateTiming_demod_eyeavg (sv mv : Int) (s : State) : (updateTiming sv mv s).demod.eyeavg = s.demod.eyeavg :=
    rfl
@[simp] theorem updateTiming_demod_locked (sv mv : Int) (s : State) : (updateTiming sv mv s).demod.locked = s.demod.locked :=
    rfl
@[simp] theorem updateTiming_demod_acqcnt (sv mv : Int) (s : State) : (updateTiming sv mv s).demod.acqcnt = s.demod.acqcnt :=
    rfl
@[simp] theorem updateEye_fsync (err : Int) (s : State) : (updateEye err s).fsync = s.fsync := rfl
@[simp] theorem updateEye_nid (err : Int) (s : State) : (updateEye err s).nid = s.nid := rfl
@[simp] theorem updateEye_evt (err : Int) (s : State) : (updateEye err s).evt = s.evt := rfl
@[simp] theorem updateEye_ctl (err : Int) (s : State) : (updateEye err s).ctl = s.ctl := rfl
@[simp] theorem updateEye_io (err : Int) (s : State) : (updateEye err s).io = s.io := rfl
@[simp] theorem updateEye_demod_tsamp (err : Int) (s : State) : (updateEye err s).demod.tsamp = s.demod.tsamp :=
    rfl
@[simp] theorem updateEye_demod_energy (err : Int) (s : State) : (updateEye err s).demod.energy = s.demod.energy :=
    rfl
@[simp] theorem updateEye_demod_php (err : Int) (s : State) : (updateEye err s).demod.php = s.demod.php := rfl
@[simp] theorem updateEye_demod_phv (err : Int) (s : State) : (updateEye err s).demod.phv = s.demod.phv := rfl
@[simp] theorem updateEye_demod_foff (err : Int) (s : State) : (updateEye err s).demod.foff = s.demod.foff :=
    rfl
@[simp] theorem updateEye_demod_dl (err : Int) (s : State) : (updateEye err s).demod.dl = s.demod.dl := rfl
@[simp] theorem updateEye_demod_tcnt (err : Int) (s : State) : (updateEye err s).demod.tcnt = s.demod.tcnt :=
    rfl
@[simp] theorem updateEye_demod_sprev (err : Int) (s : State) : (updateEye err s).demod.sprev = s.demod.sprev :=
    rfl
@[simp] theorem updateEye_demod_svalid (err : Int) (s : State) : (updateEye err s).demod.svalid = s.demod.svalid :=
    rfl
@[simp] theorem updateEye_demod_tacc (err : Int) (s : State) : (updateEye err s).demod.tacc = s.demod.tacc :=
    rfl
@[simp] theorem updateEye_demod_eyeavg (err : Int) (s : State) : (updateEye err s).demod.eyeavg = BitVec.ofInt 14 (average s.demod.eyeavg.toNat |err| s.ctl.eshift.toNat) :=
    rfl
@[simp] theorem updateEye_demod_locked (err : Int) (s : State) : (updateEye err s).demod.locked = s.demod.locked :=
    rfl
@[simp] theorem updateEye_demod_acqcnt (err : Int) (s : State) : (updateEye err s).demod.acqcnt = s.demod.acqcnt :=
    rfl
@[simp] theorem fineTrack_fsync (err : Int) (s : State) : (fineTrack err s).fsync = s.fsync := rfl
@[simp] theorem fineTrack_nid (err : Int) (s : State) : (fineTrack err s).nid = s.nid := rfl
@[simp] theorem fineTrack_evt (err : Int) (s : State) : (fineTrack err s).evt = s.evt := rfl
@[simp] theorem fineTrack_ctl (err : Int) (s : State) : (fineTrack err s).ctl = s.ctl := rfl
@[simp] theorem fineTrack_io (err : Int) (s : State) : (fineTrack err s).io = s.io := rfl
@[simp] theorem fineTrack_demod_tsamp (err : Int) (s : State) : (fineTrack err s).demod.tsamp = s.demod.tsamp :=
    rfl
@[simp] theorem fineTrack_demod_energy (err : Int) (s : State) : (fineTrack err s).demod.energy = s.demod.energy :=
    rfl
@[simp] theorem fineTrack_demod_php (err : Int) (s : State) : (fineTrack err s).demod.php = s.demod.php := rfl
@[simp] theorem fineTrack_demod_phv (err : Int) (s : State) : (fineTrack err s).demod.phv = s.demod.phv := rfl
@[simp] theorem fineTrack_demod_foff (err : Int) (s : State) : (fineTrack err s).demod.foff = fineOffset s.demod.foff err s.ctl.trk s.ctl.folim :=
    rfl
@[simp] theorem fineTrack_demod_dl (err : Int) (s : State) : (fineTrack err s).demod.dl = s.demod.dl := rfl
@[simp] theorem fineTrack_demod_tcnt (err : Int) (s : State) : (fineTrack err s).demod.tcnt = s.demod.tcnt :=
    rfl
@[simp] theorem fineTrack_demod_sprev (err : Int) (s : State) : (fineTrack err s).demod.sprev = s.demod.sprev :=
    rfl
@[simp] theorem fineTrack_demod_svalid (err : Int) (s : State) : (fineTrack err s).demod.svalid = s.demod.svalid :=
    rfl
@[simp] theorem fineTrack_demod_tacc (err : Int) (s : State) : (fineTrack err s).demod.tacc = s.demod.tacc :=
    rfl
@[simp] theorem fineTrack_demod_eyeavg (err : Int) (s : State) : (fineTrack err s).demod.eyeavg = s.demod.eyeavg :=
    rfl
@[simp] theorem fineTrack_demod_locked (err : Int) (s : State) : (fineTrack err s).demod.locked = s.demod.locked :=
    rfl
@[simp] theorem fineTrack_demod_acqcnt (err : Int) (s : State) : (fineTrack err s).demod.acqcnt = s.demod.acqcnt :=
    rfl
@[simp] theorem acquire_fsync (sig : Bool) (s : State) : (acquire sig s).fsync = s.fsync :=
    by
  unfold acquire; split <;> rfl
@[simp] theorem acquire_nid (sig : Bool) (s : State) : (acquire sig s).nid = s.nid :=
    by
  unfold acquire; split <;> rfl
@[simp] theorem acquire_evt (sig : Bool) (s : State) : (acquire sig s).evt = s.evt :=
    by
  unfold acquire; split <;> rfl
@[simp] theorem acquire_ctl (sig : Bool) (s : State) : (acquire sig s).ctl = s.ctl :=
    by
  unfold acquire; split <;> rfl
@[simp] theorem acquire_io (sig : Bool) (s : State) : (acquire sig s).io = s.io :=
    by
  unfold acquire; split <;> rfl
@[simp] theorem acquire_demod_tsamp (sig : Bool) (s : State) : (acquire sig s).demod.tsamp = s.demod.tsamp :=
    by
  unfold acquire; split <;> rfl
@[simp] theorem acquire_demod_energy (sig : Bool) (s : State) : (acquire sig s).demod.energy = s.demod.energy :=
    by
  unfold acquire; split <;> rfl
@[simp] theorem acquire_demod_php (sig : Bool) (s : State) : (acquire sig s).demod.php = s.demod.php :=
    by
  unfold acquire; split <;> rfl
@[simp] theorem acquire_demod_phv (sig : Bool) (s : State) : (acquire sig s).demod.phv = s.demod.phv :=
    by
  unfold acquire; split <;> rfl
@[simp] theorem acquire_demod_foff (sig : Bool) (s : State) : (acquire sig s).demod.foff = s.demod.foff :=
    by
  unfold acquire; split <;> rfl
@[simp] theorem acquire_demod_dl (sig : Bool) (s : State) : (acquire sig s).demod.dl = s.demod.dl :=
    by
  unfold acquire; split <;> rfl
@[simp] theorem acquire_demod_tcnt (sig : Bool) (s : State) : (acquire sig s).demod.tcnt = s.demod.tcnt :=
    by
  unfold acquire; split <;> rfl
@[simp] theorem acquire_demod_sprev (sig : Bool) (s : State) : (acquire sig s).demod.sprev = s.demod.sprev :=
    by
  unfold acquire; split <;> rfl
@[simp] theorem acquire_demod_svalid (sig : Bool) (s : State) : (acquire sig s).demod.svalid = s.demod.svalid :=
    by
  unfold acquire; split <;> rfl
@[simp] theorem acquire_demod_tacc (sig : Bool) (s : State) : (acquire sig s).demod.tacc = s.demod.tacc :=
    by
  unfold acquire; split <;> rfl
@[simp] theorem acquire_demod_eyeavg (sig : Bool) (s : State) : (acquire sig s).demod.eyeavg = s.demod.eyeavg :=
    by
  unfold acquire; split <;> rfl
@[simp] theorem frontEnd_fsync (i q : Component) (s : State) : (frontEnd i q s).fsync = s.fsync :=
    by
  simp [frontEnd]
@[simp] theorem frontEnd_nid (i q : Component) (s : State) : (frontEnd i q s).nid = s.nid :=
    by
  simp [frontEnd]
@[simp] theorem frontEnd_evt (i q : Component) (s : State) : (frontEnd i q s).evt = s.evt :=
    by
  simp [frontEnd]
@[simp] theorem frontEnd_ctl (i q : Component) (s : State) : (frontEnd i q s).ctl = s.ctl :=
    by
  simp [frontEnd]
@[simp] theorem frontEnd_io (i q : Component) (s : State) : (frontEnd i q s).io = s.io := by
  simp [frontEnd]
@[simp] theorem frontEnd_demod_tsamp (i q : Component) (s : State) : (frontEnd i q s).demod.tsamp = s.demod.tsamp :=
    by
  simp [frontEnd]
@[simp] theorem frontEnd_demod_tcnt (i q : Component) (s : State) : (frontEnd i q s).demod.tcnt = s.demod.tcnt :=
    by
  simp [frontEnd]
@[simp] theorem frontEnd_demod_sprev (i q : Component) (s : State) : (frontEnd i q s).demod.sprev = s.demod.sprev :=
    by
  simp [frontEnd]
@[simp] theorem frontEnd_demod_svalid (i q : Component) (s : State) : (frontEnd i q s).demod.svalid = s.demod.svalid :=
    by
  simp [frontEnd]
@[simp] theorem frontEnd_demod_tacc (i q : Component) (s : State) : (frontEnd i q s).demod.tacc = s.demod.tacc :=
    by
  simp [frontEnd]
@[simp] theorem frontEnd_demod_eyeavg (i q : Component) (s : State) : (frontEnd i q s).demod.eyeavg = s.demod.eyeavg :=
    by
  simp [frontEnd]
@[simp] theorem frontEnd_demod_locked (i q : Component) (s : State) : (frontEnd i q s).demod.locked = s.demod.locked :=
    by
  simp [frontEnd]
@[simp] theorem frontEnd_demod_acqcnt (i q : Component) (s : State) : (frontEnd i q s).demod.acqcnt = s.demod.acqcnt :=
    by
  simp [frontEnd]

/-! ### FSYNC updates -/

@[simp] theorem shiftWindow_demod (d : Dibit) (s : State) : (shiftWindow d s).demod = s.demod := rfl
@[simp] theorem shiftWindow_nid (d : Dibit) (s : State) : (shiftWindow d s).nid = s.nid := rfl
@[simp] theorem shiftWindow_evt (d : Dibit) (s : State) : (shiftWindow d s).evt = s.evt := rfl
@[simp] theorem shiftWindow_ctl (d : Dibit) (s : State) : (shiftWindow d s).ctl = s.ctl := rfl
@[simp] theorem shiftWindow_io (d : Dibit) (s : State) : (shiftWindow d s).io = s.io := rfl
@[simp] theorem shiftWindow_fsync_sr (d : Dibit) (s : State) : (shiftWindow d s).fsync.sr = (s.fsync.sr ++ d).setWidth 48 :=
    rfl
@[simp] theorem shiftWindow_fsync_srv (d : Dibit) (s : State) : (shiftWindow d s).fsync.srv = BitVec.ofNat 5 (min 24 (s.fsync.srv.toNat + 1)) :=
    rfl
@[simp] theorem shiftWindow_fsync_fstate (d : Dibit) (s : State) : (shiftWindow d s).fsync.fstate = s.fsync.fstate :=
    rfl
@[simp] theorem shiftWindow_fsync_pos (d : Dibit) (s : State) : (shiftWindow d s).fsync.pos = s.fsync.pos :=
    rfl
@[simp] theorem shiftWindow_fsync_nidacc (d : Dibit) (s : State) : (shiftWindow d s).fsync.nidacc = s.fsync.nidacc :=
    rfl
@[simp] theorem shiftWindow_fsync_nidn (d : Dibit) (s : State) : (shiftWindow d s).fsync.nidn = s.fsync.nidn :=
    rfl
@[simp] theorem shiftWindow_fsync_srchcnt (d : Dibit) (s : State) : (shiftWindow d s).fsync.srchcnt = s.fsync.srchcnt :=
    rfl
@[simp] theorem shiftWindow_fsync_syncq (d : Dibit) (s : State) : (shiftWindow d s).fsync.syncq = s.fsync.syncq :=
    rfl
@[simp] theorem shiftWindow_fsync_tstamp (d : Dibit) (s : State) : (shiftWindow d s).fsync.tstamp = s.fsync.tstamp :=
    rfl
@[simp] theorem shiftWindow_fsync_flen (d : Dibit) (s : State) : (shiftWindow d s).fsync.flen = s.fsync.flen :=
    rfl
@[simp] theorem advancePos_demod (s : State) : (advancePos s).demod = s.demod := rfl
@[simp] theorem advancePos_nid (s : State) : (advancePos s).nid = s.nid := rfl
@[simp] theorem advancePos_evt (s : State) : (advancePos s).evt = s.evt := rfl
@[simp] theorem advancePos_ctl (s : State) : (advancePos s).ctl = s.ctl := rfl
@[simp] theorem advancePos_io (s : State) : (advancePos s).io = s.io := rfl
@[simp] theorem advancePos_fsync_sr (s : State) : (advancePos s).fsync.sr = s.fsync.sr := rfl
@[simp] theorem advancePos_fsync_srv (s : State) : (advancePos s).fsync.srv = s.fsync.srv := rfl
@[simp] theorem advancePos_fsync_fstate (s : State) : (advancePos s).fsync.fstate = s.fsync.fstate := rfl
@[simp] theorem advancePos_fsync_pos (s : State) : (advancePos s).fsync.pos = s.fsync.pos + 1 := rfl
@[simp] theorem advancePos_fsync_nidacc (s : State) : (advancePos s).fsync.nidacc = s.fsync.nidacc := rfl
@[simp] theorem advancePos_fsync_nidn (s : State) : (advancePos s).fsync.nidn = s.fsync.nidn := rfl
@[simp] theorem advancePos_fsync_srchcnt (s : State) : (advancePos s).fsync.srchcnt = s.fsync.srchcnt := rfl
@[simp] theorem advancePos_fsync_syncq (s : State) : (advancePos s).fsync.syncq = s.fsync.syncq := rfl
@[simp] theorem advancePos_fsync_tstamp (s : State) : (advancePos s).fsync.tstamp = s.fsync.tstamp := rfl
@[simp] theorem advancePos_fsync_flen (s : State) : (advancePos s).fsync.flen = s.fsync.flen := rfl
@[simp] theorem collectDibit_demod (d : Dibit) (s : State) : (collectDibit d s).demod = s.demod := rfl
@[simp] theorem collectDibit_nid (d : Dibit) (s : State) : (collectDibit d s).nid = s.nid := rfl
@[simp] theorem collectDibit_evt (d : Dibit) (s : State) : (collectDibit d s).evt = s.evt := rfl
@[simp] theorem collectDibit_ctl (d : Dibit) (s : State) : (collectDibit d s).ctl = s.ctl := rfl
@[simp] theorem collectDibit_io (d : Dibit) (s : State) : (collectDibit d s).io = s.io := rfl
@[simp] theorem collectDibit_fsync_sr (d : Dibit) (s : State) : (collectDibit d s).fsync.sr = s.fsync.sr :=
    rfl
@[simp] theorem collectDibit_fsync_srv (d : Dibit) (s : State) : (collectDibit d s).fsync.srv = s.fsync.srv :=
    rfl
@[simp] theorem collectDibit_fsync_fstate (d : Dibit) (s : State) : (collectDibit d s).fsync.fstate = s.fsync.fstate :=
    rfl
@[simp] theorem collectDibit_fsync_pos (d : Dibit) (s : State) : (collectDibit d s).fsync.pos = s.fsync.pos :=
    rfl
@[simp] theorem collectDibit_fsync_nidacc (d : Dibit) (s : State) : (collectDibit d s).fsync.nidacc = (s.fsync.nidacc ++ d).setWidth 64 :=
    rfl
@[simp] theorem collectDibit_fsync_nidn (d : Dibit) (s : State) : (collectDibit d s).fsync.nidn = s.fsync.nidn + 1 :=
    rfl
@[simp] theorem collectDibit_fsync_srchcnt (d : Dibit) (s : State) : (collectDibit d s).fsync.srchcnt = s.fsync.srchcnt :=
    rfl
@[simp] theorem collectDibit_fsync_syncq (d : Dibit) (s : State) : (collectDibit d s).fsync.syncq = s.fsync.syncq :=
    rfl
@[simp] theorem collectDibit_fsync_tstamp (d : Dibit) (s : State) : (collectDibit d s).fsync.tstamp = s.fsync.tstamp :=
    rfl
@[simp] theorem collectDibit_fsync_flen (d : Dibit) (s : State) : (collectDibit d s).fsync.flen = s.fsync.flen :=
    rfl
@[simp] theorem backToSearch_demod (s : State) : (backToSearch s).demod = s.demod := rfl
@[simp] theorem backToSearch_nid (s : State) : (backToSearch s).nid = s.nid := rfl
@[simp] theorem backToSearch_evt (s : State) : (backToSearch s).evt = s.evt := rfl
@[simp] theorem backToSearch_ctl (s : State) : (backToSearch s).ctl = s.ctl := rfl
@[simp] theorem backToSearch_io (s : State) : (backToSearch s).io = s.io := rfl
@[simp] theorem backToSearch_fsync_sr (s : State) : (backToSearch s).fsync.sr = s.fsync.sr := rfl
@[simp] theorem backToSearch_fsync_srv (s : State) : (backToSearch s).fsync.srv = s.fsync.srv := rfl
@[simp] theorem backToSearch_fsync_fstate (s : State) : (backToSearch s).fsync.fstate = .search := rfl
@[simp] theorem backToSearch_fsync_pos (s : State) : (backToSearch s).fsync.pos = s.fsync.pos := rfl
@[simp] theorem backToSearch_fsync_nidacc (s : State) : (backToSearch s).fsync.nidacc = s.fsync.nidacc := rfl
@[simp] theorem backToSearch_fsync_nidn (s : State) : (backToSearch s).fsync.nidn = s.fsync.nidn := rfl
@[simp] theorem backToSearch_fsync_srchcnt (s : State) : (backToSearch s).fsync.srchcnt = 0#16 := rfl
@[simp] theorem backToSearch_fsync_syncq (s : State) : (backToSearch s).fsync.syncq = s.fsync.syncq := rfl
@[simp] theorem backToSearch_fsync_tstamp (s : State) : (backToSearch s).fsync.tstamp = s.fsync.tstamp := rfl
@[simp] theorem backToSearch_fsync_flen (s : State) : (backToSearch s).fsync.flen = s.fsync.flen := rfl
@[simp] theorem latchLength_demod (c : CodeWord) (s : State) : (latchLength c s).demod = s.demod := rfl
@[simp] theorem latchLength_nid (c : CodeWord) (s : State) : (latchLength c s).nid = s.nid := rfl
@[simp] theorem latchLength_evt (c : CodeWord) (s : State) : (latchLength c s).evt = s.evt := rfl
@[simp] theorem latchLength_ctl (c : CodeWord) (s : State) : (latchLength c s).ctl = s.ctl := rfl
@[simp] theorem latchLength_io (c : CodeWord) (s : State) : (latchLength c s).io = s.io := rfl
@[simp] theorem latchLength_fsync_sr (c : CodeWord) (s : State) : (latchLength c s).fsync.sr = s.fsync.sr :=
    rfl
@[simp] theorem latchLength_fsync_srv (c : CodeWord) (s : State) : (latchLength c s).fsync.srv = s.fsync.srv :=
    rfl
@[simp] theorem latchLength_fsync_fstate (c : CodeWord) (s : State) : (latchLength c s).fsync.fstate = s.fsync.fstate :=
    rfl
@[simp] theorem latchLength_fsync_pos (c : CodeWord) (s : State) : (latchLength c s).fsync.pos = s.fsync.pos :=
    rfl
@[simp] theorem latchLength_fsync_nidacc (c : CodeWord) (s : State) : (latchLength c s).fsync.nidacc = s.fsync.nidacc :=
    rfl
@[simp] theorem latchLength_fsync_nidn (c : CodeWord) (s : State) : (latchLength c s).fsync.nidn = s.fsync.nidn :=
    rfl
@[simp] theorem latchLength_fsync_srchcnt (c : CodeWord) (s : State) : (latchLength c s).fsync.srchcnt = s.fsync.srchcnt :=
    rfl
@[simp] theorem latchLength_fsync_syncq (c : CodeWord) (s : State) : (latchLength c s).fsync.syncq = s.fsync.syncq :=
    rfl
@[simp] theorem latchLength_fsync_tstamp (c : CodeWord) (s : State) : (latchLength c s).fsync.tstamp = s.fsync.tstamp :=
    rfl
@[simp] theorem latchLength_fsync_flen (c : CodeWord) (s : State) : (latchLength c s).fsync.flen = (dutEntry (duidOf c) s.ctl).len :=
    rfl
@[simp] theorem beginNid_demod (dist : Nat) (s : State) : (beginNid dist s).demod = s.demod := rfl
@[simp] theorem beginNid_nid (dist : Nat) (s : State) : (beginNid dist s).nid = s.nid := rfl
@[simp] theorem beginNid_evt (dist : Nat) (s : State) : (beginNid dist s).evt = s.evt := rfl
@[simp] theorem beginNid_ctl (dist : Nat) (s : State) : (beginNid dist s).ctl = s.ctl := rfl
@[simp] theorem beginNid_io (dist : Nat) (s : State) : (beginNid dist s).io = s.io := rfl
@[simp] theorem beginNid_fsync_sr (dist : Nat) (s : State) : (beginNid dist s).fsync.sr = s.fsync.sr := rfl
@[simp] theorem beginNid_fsync_srv (dist : Nat) (s : State) : (beginNid dist s).fsync.srv = s.fsync.srv := rfl
@[simp] theorem beginNid_fsync_fstate (dist : Nat) (s : State) : (beginNid dist s).fsync.fstate = .nid := rfl
@[simp] theorem beginNid_fsync_pos (dist : Nat) (s : State) : (beginNid dist s).fsync.pos = 24#12 := rfl
@[simp] theorem beginNid_fsync_nidacc (dist : Nat) (s : State) : (beginNid dist s).fsync.nidacc = 0#64 := rfl
@[simp] theorem beginNid_fsync_nidn (dist : Nat) (s : State) : (beginNid dist s).fsync.nidn = 0#6 := rfl
@[simp] theorem beginNid_fsync_srchcnt (dist : Nat) (s : State) : (beginNid dist s).fsync.srchcnt = 0#16 :=
    rfl
@[simp] theorem beginNid_fsync_syncq (dist : Nat) (s : State) : (beginNid dist s).fsync.syncq = BitVec.ofNat 6 (48 - dist) :=
    rfl
@[simp] theorem beginNid_fsync_tstamp (dist : Nat) (s : State) : (beginNid dist s).fsync.tstamp = s.demod.tsamp :=
    rfl
@[simp] theorem beginNid_fsync_flen (dist : Nat) (s : State) : (beginNid dist s).fsync.flen = s.fsync.flen :=
    rfl
@[simp] theorem clearWindow_demod (s : State) : (clearWindow s).demod = s.demod := rfl
@[simp] theorem clearWindow_nid (s : State) : (clearWindow s).nid = s.nid := rfl
@[simp] theorem clearWindow_evt (s : State) : (clearWindow s).evt = s.evt := rfl
@[simp] theorem clearWindow_ctl (s : State) : (clearWindow s).ctl = s.ctl := rfl
@[simp] theorem clearWindow_io (s : State) : (clearWindow s).io = s.io := rfl
@[simp] theorem clearWindow_fsync_sr (s : State) : (clearWindow s).fsync.sr = 0#48 := rfl
@[simp] theorem clearWindow_fsync_srv (s : State) : (clearWindow s).fsync.srv = 0#5 := rfl
@[simp] theorem clearWindow_fsync_fstate (s : State) : (clearWindow s).fsync.fstate = .search := rfl
@[simp] theorem clearWindow_fsync_pos (s : State) : (clearWindow s).fsync.pos = s.fsync.pos := rfl
@[simp] theorem clearWindow_fsync_nidacc (s : State) : (clearWindow s).fsync.nidacc = s.fsync.nidacc := rfl
@[simp] theorem clearWindow_fsync_nidn (s : State) : (clearWindow s).fsync.nidn = s.fsync.nidn := rfl
@[simp] theorem clearWindow_fsync_srchcnt (s : State) : (clearWindow s).fsync.srchcnt = 0#16 := rfl
@[simp] theorem clearWindow_fsync_syncq (s : State) : (clearWindow s).fsync.syncq = s.fsync.syncq := rfl
@[simp] theorem clearWindow_fsync_tstamp (s : State) : (clearWindow s).fsync.tstamp = s.fsync.tstamp := rfl
@[simp] theorem clearWindow_fsync_flen (s : State) : (clearWindow s).fsync.flen = s.fsync.flen := rfl

/-! ### NIDDEC and counter updates -/

@[simp] theorem latchNid_demod (s : State) : (latchNid s).demod = s.demod := rfl
@[simp] theorem latchNid_fsync (s : State) : (latchNid s).fsync = s.fsync := rfl
@[simp] theorem latchNid_evt (s : State) : (latchNid s).evt = s.evt := rfl
@[simp] theorem latchNid_ctl (s : State) : (latchNid s).ctl = s.ctl := rfl
@[simp] theorem latchNid_io (s : State) : (latchNid s).io = s.io := rfl
@[simp] theorem latchNid_nid_lastnid (s : State) : (latchNid s).nid.lastnid = s.fsync.nidacc := rfl
@[simp] theorem latchNid_nid_decerrcnt (s : State) : (latchNid s).nid.decerrcnt = s.nid.decerrcnt := rfl
@[simp] theorem latchNid_nid_framecnt (s : State) : (latchNid s).nid.framecnt = s.nid.framecnt := rfl
@[simp] theorem latchNid_nid_loscnt (s : State) : (latchNid s).nid.loscnt = s.nid.loscnt := rfl
@[simp] theorem latchNid_nid_synccnt (s : State) : (latchNid s).nid.synccnt = s.nid.synccnt := rfl
@[simp] theorem countSync_demod (s : State) : (countSync s).demod = s.demod := rfl
@[simp] theorem countSync_fsync (s : State) : (countSync s).fsync = s.fsync := rfl
@[simp] theorem countSync_evt (s : State) : (countSync s).evt = s.evt := rfl
@[simp] theorem countSync_ctl (s : State) : (countSync s).ctl = s.ctl := rfl
@[simp] theorem countSync_io (s : State) : (countSync s).io = s.io := rfl
@[simp] theorem countSync_nid_lastnid (s : State) : (countSync s).nid.lastnid = s.nid.lastnid := rfl
@[simp] theorem countSync_nid_decerrcnt (s : State) : (countSync s).nid.decerrcnt = s.nid.decerrcnt := rfl
@[simp] theorem countSync_nid_framecnt (s : State) : (countSync s).nid.framecnt = s.nid.framecnt := rfl
@[simp] theorem countSync_nid_loscnt (s : State) : (countSync s).nid.loscnt = s.nid.loscnt := rfl
@[simp] theorem countSync_nid_synccnt (s : State) : (countSync s).nid.synccnt = s.nid.synccnt + 1 := rfl

end Sys2Proof.Machine
end

