-- ==== Sys2Proof/Laws/Ops.lean ====
section
/-! SUPPORT. For each shared operation, once, everything it can do: the cases of its answer, the parts of the state it
never touches, and the tokens it emits. -/

namespace Sys2Proof.Machine

/-! ### Emitting -/

theorem emits_refl (s : State) : Emits s s [] := by simp [Emits]

theorem emits_emit (t : Token) (s : State) : Emits s (emit t s) [t] := by simp [Emits]

theorem Emits.trans {s t u : State} {xs ys : List Token} (h : Emits s t xs) (h' : Emits t u ys) :
    Emits s u (xs ++ ys) := by
  unfold Emits at *
  rw [h', h, List.map_append, List.append_assoc]

/-- An operation that leaves the trace alone emits nothing. -/
theorem emits_nil {s t : State} (h : t.io.trace = s.io.trace) : Emits s t [] := by simp [Emits, h]

/-- The tokens `closeFrame` emits: an END in state PAYLOAD, else none. -/
def closeTokens (reason : EndReason) (f : Fsync) : List Token :=
  match f.fstate with
  | .payload => [.frameEnd reason f.pos]
  | .search | .nid => []

theorem emits_closeFrame (reason : EndReason) (s : State) :
    Emits s (closeFrame reason s) (closeTokens reason s.fsync) := by
  cases h : s.fsync.fstate <;> simp only [closeFrame, closeTokens, h]
  · exact emits_refl _
  · exact emits_refl _
  · exact emits_emit _ _

@[simp] theorem closeFrame_trace (reason : EndReason) (s : State) :
    (closeFrame reason s).io.trace = s.io.trace ++ (closeTokens reason s.fsync).map tokenWord :=
  emits_closeFrame reason s

theorem closeTokens_length (reason : EndReason) (f : Fsync) : (closeTokens reason f).length ≤ 1 := by
  unfold closeTokens; split <;> simp

/-! ### NIDDEC -/

/-- `openFrame` either closes the frame at once or goes to PAYLOAD (rule R201). -/
theorem openFrame_cases (s : State) :
    (s.fsync.flen.toNat ≤ s.fsync.pos.toNat ∧
      openFrame s = backToSearch (emit (.frameEnd .len s.fsync.pos) s)) ∨
    (s.fsync.pos.toNat < s.fsync.flen.toNat ∧
      openFrame s = { s with fsync := { s.fsync with fstate := .payload } }) := by
  unfold openFrame
  split
  · exact .inl ⟨‹_›, rfl⟩
  · exact .inr ⟨by omega, rfl⟩

/-- Everything NIDDEC can do (rule R190): accept the codeword within the radius, or reject. -/
theorem nidDecode_cases (s : State) :
    (∃ c, nearest (nidCode s.fsync.nidacc) s.ctl.nidt.toNat = some c ∧
      nidDecode s = acceptNid c (popcount (nidCode s.fsync.nidacc ^^^ c)) (latchNid s)) ∨
    (nearest (nidCode s.fsync.nidacc) s.ctl.nidt.toNat = none ∧ nidDecode s = rejectNid (latchNid s)) := by
  unfold nidDecode
  dsimp only
  split
  · next c h => exact .inl ⟨c, h, rfl⟩
  · next h => exact .inr ⟨h, rfl⟩

/-- What the FSYNC operations leave alone: DEMOD, the configuration, and the ports but for the trace. -/
structure FsyncFrame (s t : State) : Prop where
  demod : t.demod = s.demod
  ctl : t.ctl = s.ctl
  script : t.io.script = s.io.script
  rdata : t.io.rdata = s.io.rdata

theorem FsyncFrame.refl (s : State) : FsyncFrame s s := ⟨rfl, rfl, rfl, rfl⟩

theorem FsyncFrame.trans {s t u : State} (h : FsyncFrame s t) (h' : FsyncFrame t u) : FsyncFrame s u :=
  ⟨h'.demod.trans h.demod, h'.ctl.trans h.ctl, h'.script.trans h.script, h'.rdata.trans h.rdata⟩

theorem openFrame_frame (s : State) : FsyncFrame s (openFrame s) := by
  rcases openFrame_cases s with ⟨-, h⟩ | ⟨-, h⟩ <;> rw [h] <;> exact ⟨rfl, rfl, rfl, rfl⟩

theorem acceptNid_frame (c : CodeWord) (nerr : Nat) (s : State) : FsyncFrame s (acceptNid c nerr s) := by
  have h := openFrame_frame (latchLength c (emit (headerToken c nerr s) (report .nidAccepted s)))
  exact ⟨h.demod, h.ctl, h.script, h.rdata⟩

theorem nidDecode_frame (s : State) : FsyncFrame s (nidDecode s) := by
  rcases nidDecode_cases s with ⟨c, -, h⟩ | ⟨-, h⟩ <;> rw [h]
  · have h := acceptNid_frame c (popcount (nidCode s.fsync.nidacc ^^^ c)) (latchNid s)
    exact ⟨h.demod, h.ctl, h.script, h.rdata⟩
  · exact ⟨rfl, rfl, rfl, rfl⟩

/-- What NIDDEC leaves alone of FSYNC (rule R206). -/
structure NidFrame (f g : Fsync) : Prop where
  sr : g.sr = f.sr
  srv : g.srv = f.srv
  pos : g.pos = f.pos
  nidacc : g.nidacc = f.nidacc
  nidn : g.nidn = f.nidn
  syncq : g.syncq = f.syncq
  tstamp : g.tstamp = f.tstamp

theorem openFrame_nidFrame (s : State) : NidFrame s.fsync (openFrame s).fsync := by
  rcases openFrame_cases s with ⟨-, h⟩ | ⟨-, h⟩ <;> rw [h] <;> exact ⟨rfl, rfl, rfl, rfl, rfl, rfl, rfl⟩

theorem acceptNid_nidFrame (c : CodeWord) (nerr : Nat) (s : State) :
    NidFrame s.fsync (acceptNid c nerr s).fsync := by
  have h := openFrame_nidFrame (latchLength c (emit (headerToken c nerr s) (report .nidAccepted s)))
  exact ⟨h.sr, h.srv, h.pos, h.nidacc, h.nidn, h.syncq, h.tstamp⟩

theorem nidDecode_nidFrame (s : State) : NidFrame s.fsync (nidDecode s).fsync := by
  rcases nidDecode_cases s with ⟨c, -, h⟩ | ⟨-, h⟩ <;> rw [h]
  · exact acceptNid_nidFrame c (popcount (nidCode s.fsync.nidacc ^^^ c)) (latchNid s)
  · exact ⟨rfl, rfl, rfl, rfl, rfl, rfl, rfl⟩

/-- The tokens NIDDEC emits: HDR, HDR then END, or DECERR (rule R207). -/
theorem nidDecode_emits (s : State) :
    (∃ c, nearest (nidCode s.fsync.nidacc) s.ctl.nidt.toNat = some c ∧
      ∃ toks, Emits s (nidDecode s)
          (headerToken c (popcount (nidCode s.fsync.nidacc ^^^ c)) s :: toks) ∧
        (((dutEntry (duidOf c) s.ctl).len.toNat ≤ s.fsync.pos.toNat ∧ toks = [.frameEnd .len s.fsync.pos] ∧
            (nidDecode s).fsync.fstate = .search) ∨
          (s.fsync.pos.toNat < (dutEntry (duidOf c) s.ctl).len.toNat ∧ toks = [] ∧
            (nidDecode s).fsync.fstate = .payload))) ∨
    (nearest (nidCode s.fsync.nidacc) s.ctl.nidt.toNat = none ∧
      Emits s (nidDecode s) [.decerr s.fsync.nidacc] ∧ (nidDecode s).fsync.fstate = .search) := by
  rcases nidDecode_cases s with ⟨c, hc, h⟩ | ⟨hn, h⟩ <;> rw [h]
  · refine .inl ⟨c, hc, ?_⟩
    unfold acceptNid
    rcases openFrame_cases (latchLength c (emit (headerToken c (popcount (nidCode s.fsync.nidacc ^^^ c))
      (latchNid s)) (report .nidAccepted (latchNid s)))) with ⟨hl, h'⟩ | ⟨hl, h'⟩ <;>
      simp only [latchLength_fsync_flen, latchLength_fsync_pos, emit_fsync, emit_ctl, report_fsync,
        report_ctl, latchNid_fsync, latchNid_ctl] at hl <;> rw [h']
    · exact ⟨[.frameEnd .len s.fsync.pos], by simp [Emits, headerToken], .inl ⟨hl, rfl, rfl⟩⟩
    · exact ⟨[], by simp [Emits, headerToken], .inr ⟨hl, rfl, rfl⟩⟩
  · exact .inr ⟨hn, by simp [Emits, rejectNid], rfl⟩

/-! ### DIBIT and LOSMARK -/

/-- Everything `searchDibit` can do (rules R165 and R167). -/
theorem searchDibit_cases (s : State) :
    (s.ctl.srchwin = 0#16 ∧ searchDibit s = s) ∨
    (s.ctl.srchwin ≠ 0#16 ∧ s.ctl.srchwin.toNat ≤ s.fsync.srchcnt.toNat + 1 ∧
      searchDibit s = report .windowExpired { s with fsync := { s.fsync with srchcnt := 0#16 } }) ∨
    (s.ctl.srchwin ≠ 0#16 ∧ s.fsync.srchcnt.toNat + 1 < s.ctl.srchwin.toNat ∧
      searchDibit s = { s with fsync := { s.fsync with srchcnt := s.fsync.srchcnt + 1 } }) := by
  unfold searchDibit
  split
  · exact .inl ⟨‹_›, rfl⟩
  · split
    · exact .inr (.inl ⟨‹_›, ‹_›, rfl⟩)
    · exact .inr (.inr ⟨‹_›, by omega, rfl⟩)

/-- Everything `nidDibit` can do (rule R168). -/
theorem nidDibit_cases (d : Dibit) (s : State) :
    (isStatusPos s.fsync.pos = true ∧ nidDibit d s = advancePos s) ∨
    (isStatusPos s.fsync.pos = false ∧ (collectDibit d (advancePos s)).fsync.nidn = 32#6 ∧
      nidDibit d s = nidDecode (collectDibit d (advancePos s))) ∨
    (isStatusPos s.fsync.pos = false ∧ (collectDibit d (advancePos s)).fsync.nidn ≠ 32#6 ∧
      nidDibit d s = collectDibit d (advancePos s)) := by
  unfold nidDibit
  split
  · exact .inl ⟨‹_›, rfl⟩
  · next h =>
    have h : isStatusPos s.fsync.pos = false := by simpa using h
    dsimp only
    split
    · exact .inr (.inl ⟨h, ‹_›, rfl⟩)
    · exact .inr (.inr ⟨h, ‹_›, rfl⟩)

/-- The PAY token of a payload dibit (rule R169). -/
def payToken (d : Dibit) (conf : BitVec 8) (f : Fsync) : Token :=
  .pay d (isStatusPos f.pos) conf f.pos

/-- Everything `payloadDibit` can do (rule R169). -/
theorem payloadDibit_cases (d : Dibit) (conf : BitVec 8) (s : State) :
    (s.fsync.flen.toNat ≤ (s.fsync.pos + 1).toNat ∧ payloadDibit d conf s =
      backToSearch (emit (.frameEnd .len (s.fsync.pos + 1)) (advancePos (emit (payToken d conf s.fsync) s)))) ∨
    ((s.fsync.pos + 1).toNat < s.fsync.flen.toNat ∧
      payloadDibit d conf s = advancePos (emit (payToken d conf s.fsync) s)) := by
  unfold payloadDibit
  dsimp only
  split
  · exact .inl ⟨‹_›, rfl⟩
  · next h => exact .inr ⟨Nat.lt_of_not_le h, rfl⟩

/-- Everything DIBIT can do (rule R160): a match, or one dibit of SEARCH, NID or PAYLOAD. -/
theorem takeDibit_cases (d : Dibit) (conf : BitVec 8) (s : State) :
    (syncMatch (shiftWindow d s) = true ∧
      takeDibit d conf s = startCandidate (syncDistance (shiftWindow d s)) (shiftWindow d s)) ∨
    (syncMatch (shiftWindow d s) = false ∧ s.fsync.fstate = .search ∧
      takeDibit d conf s = searchDibit (shiftWindow d s)) ∨
    (syncMatch (shiftWindow d s) = false ∧ s.fsync.fstate = .nid ∧
      takeDibit d conf s = nidDibit d (shiftWindow d s)) ∨
    (syncMatch (shiftWindow d s) = false ∧ s.fsync.fstate = .payload ∧
      takeDibit d conf s = payloadDibit d conf (shiftWindow d s)) := by
  unfold takeDibit
  dsimp only
  split
  · exact .inl ⟨‹_›, rfl⟩
  · next h =>
    have h : syncMatch (shiftWindow d s) = false := by simpa using h
    cases hf : s.fsync.fstate with
    | search => exact .inr (.inl ⟨h, rfl, by simp [unmatchedDibit, hf]⟩)
    | nid => exact .inr (.inr (.inl ⟨h, rfl, by simp [unmatchedDibit, hf]⟩))
    | payload => exact .inr (.inr (.inr ⟨h, rfl, by simp [unmatchedDibit, hf]⟩))

theorem startCandidate_frame (dist : Nat) (s : State) : FsyncFrame s (startCandidate dist s) :=
  ⟨by simp [startCandidate], by simp [startCandidate], by simp [startCandidate], by simp [startCandidate]⟩

theorem searchDibit_frame (s : State) : FsyncFrame s (searchDibit s) := by
  rcases searchDibit_cases s with ⟨-, h⟩ | ⟨-, -, h⟩ | ⟨-, -, h⟩ <;> rw [h] <;> exact ⟨rfl, rfl, rfl, rfl⟩

theorem nidDibit_frame (d : Dibit) (s : State) : FsyncFrame s (nidDibit d s) := by
  rcases nidDibit_cases d s with ⟨-, h⟩ | ⟨-, -, h⟩ | ⟨-, -, h⟩ <;> rw [h]
  · exact ⟨rfl, rfl, rfl, rfl⟩
  · have h := nidDecode_frame (collectDibit d (advancePos s))
    exact ⟨h.demod, h.ctl, h.script, h.rdata⟩
  · exact ⟨rfl, rfl, rfl, rfl⟩

theorem payloadDibit_frame (d : Dibit) (conf : BitVec 8) (s : State) :
    FsyncFrame s (payloadDibit d conf s) := by
  rcases payloadDibit_cases d conf s with ⟨-, h⟩ | ⟨-, h⟩ <;> rw [h] <;> exact ⟨rfl, rfl, rfl, rfl⟩

/-- DIBIT touches FSYNC, NIDDEC, the sticky bits and the trace only (rule R177). -/
theorem takeDibit_frame (d : Dibit) (conf : BitVec 8) (s : State) : FsyncFrame s (takeDibit d conf s) := by
  have h0 : FsyncFrame s (shiftWindow d s) := ⟨rfl, rfl, rfl, rfl⟩
  rcases takeDibit_cases d conf s with ⟨-, h⟩ | ⟨-, -, h⟩ | ⟨-, -, h⟩ | ⟨-, -, h⟩ <;> rw [h]
  · exact h0.trans (startCandidate_frame _ _)
  · exact h0.trans (searchDibit_frame _)
  · exact h0.trans (nidDibit_frame _ _)
  · exact h0.trans (payloadDibit_frame _ _ _)

/-- The tokens of LOSMARK (rule R179): LOS, preceded by END where a frame was open. -/
theorem losMark_emits (cause : LosCause) (s : State) :
    Emits s (losMark cause s) (closeTokens .los s.fsync ++ [.los cause]) := by
  simp [Emits, losMark]

theorem losMark_frame (cause : LosCause) (s : State) : FsyncFrame s (losMark cause s) := by
  constructor <;> simp [losMark]

/-! ### DEMOD -/

/-- The recursion over a table of arctangents is the loop of rule R124. -/
theorem cordic_eq_foldl (ts : List Int) (k : Nat) (x y z : Int) :
    cordic ts k x y z = ((ts.zipIdx k).foldl rotate (x, y, z)).2.2 := by
  induction ts generalizing k x y z with
  | nil => rfl
  | cons t ts ih =>
    simp only [cordic, List.zipIdx_cons, List.foldl_cons, rotate]
    split <;> exact ih ..

/-- The phase of a sample is the one rule R124 writes out. -/
theorem arg16_toNat (i q : Component) : ((arg16 i q).toNat : Int) = phaseByRule i q := by
  unfold arg16 phaseByRule
  simp only [cordic_eq_foldl]
  by_cases h : i.toInt = 0 ∧ q.toInt = 0
  · rw [if_pos h, if_pos h]
    rfl
  · rw [if_neg h, if_neg h]
    split <;>
      · rw [BitVec.toNat_ofInt, Int.toNat_of_nonneg (Int.emod_nonneg _ (by decide))]
        norm_num

/-- The phase difference of a sample in state `s` is the one of rule R126. -/
theorem phaseAdvance_arg16 (i q : Component) (s : State) :
    phaseAdvance s.demod.phv s.demod.php (arg16 i q) = differenceByRule i q s := by
  unfold phaseAdvance differenceByRule
  rw [arg16_toNat]

/-- Everything the front end of a demodulated sample does to what rules R122 to R129 name. -/
theorem frontEnd_by (i q : Component) (s : State) : FrontEndBy i q s (frontEnd i q (countSample s)) := by
  have henergy : ((frontEnd i q (countSample s)).demod.energy.toNat : Int) =
      average s.demod.energy.toNat (power i q) s.ctl.enshift.toNat := by
    simp only [frontEnd, pushDelay_demod_energy, coarseTrack_demod_energy, latchPhase_demod_energy,
      updateEnergy_demod_energy, countSample_demod_energy, countSample_ctl]
    have hp := power_bounds i q
    have hE := s.demod.energy.isLt
    have := average_between (lo := 0) (hi := 4294967295) s.ctl.enshift.toNat
      (old := s.demod.energy.toNat) (new := power i q) (by omega) (by omega)
    exact toNat_ofInt_exact (by omega) (by omega)
  have hsig : sigPresent (latchPhase (arg16 i q) (updateEnergy i q (countSample s))) =
      decide (s.ctl.sqthr.toNat ≤ (frontEnd i q (countSample s)).demod.energy.toNat) := by
    simp [frontEnd, sigPresent]
  have hfoff : (frontEnd i q (countSample s)).demod.foff =
      if sigPresent (latchPhase (arg16 i q) (updateEnergy i q (countSample s))) && !s.demod.locked then
        coarseOffset s.demod.foff (differenceByRule i q s) s.ctl.acq s.ctl.folim else s.demod.foff := by
    rw [← phaseAdvance_arg16]
    simp only [frontEnd, pushDelay_demod_foff, coarseTrack_demod_foff]
    rfl
  refine ⟨henergy, ?_, ?_, fun h hl => ?_, fun h => ?_, ?_⟩
  · rw [← arg16_toNat]; simp [frontEnd]
  · simp [frontEnd]
  · rw [hfoff, hsig, if_pos (by simp [h, hl]), coarseOffset, toInt_clampOffset]
    rfl
  · rw [hfoff, hsig, if_neg]
    rcases h with h | h <;> simp [h]
  · refine ⟨_, by simp only [frontEnd, pushDelay_demod_dl]; rw [shiftDelay_toList]; simp; rfl, ?_⟩
    rw [toInt_corrected (phaseAdvance_bounds _ _ _), ← phaseAdvance_arg16]
    rfl

/-- The soft value of a strobe sums the newest entries of the delay line (rule R131). -/
theorem softValue_eq (s : State) : softValue s = softAfter s := rfl

/-- The slicer answers the levels of the table of rule R132. -/
theorem levelValue_slice (sv : Int) : levelValue (slice sv) = levelByRule sv := by
  unfold slice levelByRule
  split
  · rfl
  · split
    · rfl
    · split <;> rfl

/-- The slicer error of a strobe (rule R133). -/
theorem slicerError_softValue (s : State) : slicerError (softValue s) = errorAfter s := by
  rw [slicerError, levelValue_slice, softValue_eq]
  rfl

/-- Everything SAMPLE can do (rules R120, R121 and R125): count only, count down, or take a strobe. -/
theorem takeSample_cases (i q : Component) (s : State) :
    ((s.ctl.en = false ∨ s.ctl.bypass = true) ∧ takeSample i q s = countSample s) ∨
    (s.ctl.en = true ∧ s.ctl.bypass = false ∧ 1 < s.demod.tcnt.toNat ∧
      takeSample i q s = { frontEnd i q (countSample s) with
        demod := { (frontEnd i q (countSample s)).demod with tcnt := s.demod.tcnt - 1 } }) ∨
    (s.ctl.en = true ∧ s.ctl.bypass = false ∧ s.demod.tcnt.toNat ≤ 1 ∧
      takeSample i q s =
        takeStrobe (sigPresent (frontEnd i q (countSample s))) (frontEnd i q (countSample s))) := by
  unfold takeSample
  dsimp only
  split
  · next h =>
    simp only [countSample_ctl, Bool.and_eq_true, Bool.not_eq_true'] at h
    unfold symbolClock
    split
    · next ht => exact .inr (.inl ⟨h.1, h.2, by simpa using ht, by simp⟩)
    · next ht => exact .inr (.inr ⟨h.1, h.2, by simpa using ht, rfl⟩)
  · next h =>
    refine .inl ⟨?_, rfl⟩
    simp only [countSample_ctl, Bool.and_eq_true, Bool.not_eq_true'] at h
    cases he : s.ctl.en <;> cases hb : s.ctl.bypass <;> simp_all

/-- The state of a strobe after its loops, before lock supervision or acquisition. -/
def strobeLoops (s : State) : State :=
  updateEye (slicerError (softValue s)) (updateTiming (softValue s) (midValue s) s)

/-- Everything STROBE can do (rules R130, R138 and R140): acquire, lose lock, or output a symbol. -/
theorem takeStrobe_cases (sig : Bool) (s : State) :
    (s.demod.locked = false ∧ takeStrobe sig s = acquire sig (strobeLoops s)) ∨
    (s.demod.locked = true ∧ sig = false ∧ takeStrobe sig s = loseLock .energy (strobeLoops s)) ∨
    (s.demod.locked = true ∧ sig = true ∧ s.ctl.uthr.toNat < (strobeLoops s).demod.eyeavg.toNat ∧
      takeStrobe sig s = loseLock .timing (strobeLoops s)) ∨
    (s.demod.locked = true ∧ sig = true ∧ (strobeLoops s).demod.eyeavg.toNat ≤ s.ctl.uthr.toNat ∧
      takeStrobe sig s = outputSymbol (levelDibit (slice (softValue s)))
        (confidence (slicerError (softValue s))) (fineTrack (slicerError (softValue s)) (strobeLoops s))) := by
  have e : takeStrobe sig s = if s.demod.locked then
      supervise sig (slice (softValue s)) (slicerError (softValue s)) (strobeLoops s)
      else acquire sig (strobeLoops s) := rfl
  rw [e]
  cases hl : s.demod.locked with
  | false => exact .inl ⟨rfl, rfl⟩
  | true =>
    right
    rw [if_pos rfl]
    cases sig with
    | false => exact .inl ⟨rfl, rfl, rfl⟩
    | true =>
      right
      by_cases h : s.ctl.uthr.toNat < (strobeLoops s).demod.eyeavg.toNat
      · exact .inl ⟨rfl, rfl, h, if_pos h⟩
      · exact .inr ⟨rfl, rfl, Nat.le_of_not_lt h, if_neg h⟩

/-! ### The step -/

/-- Everything `fetch` can answer: nothing where no event is pending, else the next event decoded. -/
theorem fetch_cases (s : State) :
    (s.io.script = [] ∧ fetch s = none) ∨
    (∃ ev rest, s.io.script = ev :: rest ∧
      fetch s = some (decode ev, { s with io := { s.io with script := rest } })) := by
  unfold fetch
  cases h : s.io.script with
  | nil => exact .inl ⟨rfl, rfl⟩
  | cons ev rest => exact .inr ⟨ev, rest, rfl, rfl⟩

/-- Everything a step can do: nothing where no event is pending, else the decoded operation. -/
theorem step_cases (s : State) :
    (s.io.script = [] ∧ step s = .next s) ∨
    (∃ ev rest, s.io.script = ev :: rest ∧
      step s = exec (decode ev) { s with io := { s.io with script := rest } }) := by
  unfold step
  rcases fetch_cases s with ⟨h, hf⟩ | ⟨ev, rest, h, hf⟩ <;> rw [hf]
  · exact .inl ⟨h, rfl⟩
  · exact .inr ⟨ev, rest, h, rfl⟩

end Sys2Proof.Machine
end

