-- ==== Sys2Proof/Laws/PerInstr.lean ====
section
/-! SUPPORT. For every operation: the word that encodes it is a word of its own row of spec/opcode_table.json, and the
operations whose row has no word have none (30_encoding.md rule R90). -/

namespace Sys2Proof

/-- A transaction announced as a write has bit 40 set (30_encoding.md rule R92). -/
theorem transactionWord_we (we : Bool) (a : RegNum) (v : Word32) :
    (transactionWord we a v).getLsbD 40 = we := by
  unfold transactionWord
  rw [BitVec.getLsbD_setWidth, BitVec.getLsbD_append, BitVec.getLsbD_append]
  cases we <;> rfl

end Sys2Proof

namespace Sys2Proof.Laws

/-- The word of an operation, masked with its row's mask, is its row's pattern; an operation whose row has no pattern
is the reset input or is encoded by nothing. -/
def TableMatch.Statement (i : Instr) : Prop :=
  match tableRow i with
  | some row => ∃ ev, encode i = some ev ∧ (eventNumber ev).2 &&& row.2 = row.1
  | none => encode i = some .reset ∨ encode i = none

theorem TableMatch.rst : TableMatch.Statement .rst := .inl rfl

theorem TableMatch.sample (i q : Component) : TableMatch.Statement (.sample i q) :=
  ⟨_, rfl, Nat.and_zero _⟩

theorem TableMatch.csrr (a : RegNum) : TableMatch.Statement (.csrr a) := by
  refine ⟨_, rfl, ?_⟩
  show (transactionWord false a 0#32).toNat &&& 2 ^ 40 = 0
  rw [Nat.and_two_pow, BitVec.testBit_toNat, transactionWord_we]
  rfl

theorem TableMatch.csrw (a : RegNum) (v : Word32) : TableMatch.Statement (.csrw a v) := by
  refine ⟨_, rfl, ?_⟩
  show (transactionWord true a v).toNat &&& 2 ^ 40 = 2 ^ 40
  rw [Nat.and_two_pow, BitVec.testBit_toNat, transactionWord_we]
  rfl

theorem TableMatch.srst : TableMatch.Statement .srst := ⟨_, rfl, by decide⟩

theorem TableMatch.flush (thenClr : Bool) : TableMatch.Statement (.flush thenClr) :=
  ⟨_, rfl, by cases thenClr <;> decide⟩

theorem TableMatch.clrcnt : TableMatch.Statement .clrcnt := ⟨_, rfl, by decide⟩

theorem TableMatch.statusw1c (clr : BitVec 5) : TableMatch.Statement (.statusw1c clr) :=
  ⟨_, rfl, by revert clr; decide⟩

theorem TableMatch.sym (d : Dibit) (conf : BitVec 8) : TableMatch.Statement (.sym d conf) :=
  ⟨_, rfl, by revert d conf; decide⟩

theorem TableMatch.losinj : TableMatch.Statement .losinj := ⟨_, rfl, by decide⟩

theorem TableMatch.strobe (sig : Bool) : TableMatch.Statement (.strobe sig) := .inr rfl

theorem TableMatch.unlock (cause : LosCause) : TableMatch.Statement (.unlock cause) := .inr rfl

theorem TableMatch.dibit (d : Dibit) (conf : BitVec 8) : TableMatch.Statement (.dibit d conf) := .inr rfl

theorem TableMatch.losmark (cause : LosCause) : TableMatch.Statement (.losmark cause) := .inr rfl

theorem TableMatch.niddec : TableMatch.Statement .niddec := .inr rfl

end Sys2Proof.Laws
end

