-- ==== Sys2Proof/Tests/Slice0.lean ====
section
/-! SUPPORT. The model's own tests: the well-formedness smoke tests, words written out from spec/30_encoding.md, values
of spec/95_test_vectors.md, one-step tests, and for each statement with hypotheses a state and operands that meet
them. Every expected value is the spec's. -/

namespace Sys2Proof.Tests

open Sys2Proof Sys2Proof.Machine

/-! ### Small states -/

/-- The state an operation leaves. -/
def after (i : Instr) (s : State) : State :=
  match exec i s with
  | .next t => t
  | .fault _ => s
  | .refused _ => s

/-- The state a step leaves. -/
def afterStep (s : State) : State :=
  match step s with
  | .next t => t
  | .fault _ => s
  | .refused _ => s

/-- After reset with CTRL.BYPASS set. -/
def bypassed : State := { State.reset with ctl := { State.reset.ctl with bypass := true } }

/-- After reset with CTRL.EN set. -/
def running : State := { State.reset with ctl := { State.reset.ctl with en := true } }

/-- `running` with chosen energy, threshold and shift. -/
def energyState (energy sqthr : BitVec 32) (shift : BitVec 4) : State :=
  { running with
    demod := { running.demod with energy := energy }
    ctl := { running.ctl with sqthr := sqthr, enshift := shift } }

/-- `running` with a chosen TCNT. -/
def clockState (tcnt : BitVec 6) : State :=
  { running with demod := { running.demod with tcnt := tcnt } }

/-- `running` with a chosen TACC. -/
def timingState (tacc : BitVec 26) : State :=
  { running with demod := { running.demod with tacc := tacc } }

/-- A strobe state with an empty delay line and ESHIFT 0, so that EYEAVG becomes 8192 (rules R133 and R137). -/
def eyeState (locked : Bool) (lthr uthr : BitVec 14) : State :=
  { running with
    demod := { running.demod with locked := locked }
    ctl := { running.ctl with eshift := 0#4, lthr := lthr, uthr := uthr } }

/-- A SEARCH state whose next dibit meets the window `sr` with `srv` valid dibits. -/
def windowState (sr : BitVec 48) (srv : BitVec 5) : State :=
  { bypassed with fsync := { bypassed.fsync with sr := sr, srv := srv } }

/-- A NID state at index `pos` with `nidn` dibits collected. -/
def nidState (pos : BitVec 12) (nidn : BitVec 6) : State :=
  { bypassed with fsync := { bypassed.fsync with fstate := .nid, pos := pos, nidn := nidn } }

/-- A PAYLOAD state at index `pos` of a data unit of length `flen`. -/
def payloadState (pos flen : BitVec 12) : State :=
  { bypassed with fsync := { bypassed.fsync with fstate := .payload, pos := pos, flen := flen } }

/-- A state in which NIDDEC runs on `acc`, with radius `nidt` and length `len` for DUID 3. -/
def decodeState (acc : BitVec 64) (nidt : BitVec 4) (len : BitVec 12) : State :=
  { bypassed with
    fsync := { bypassed.fsync with fstate := .nid, pos := 57#12, nidn := 32#6, nidacc := acc, syncq := 48#6 }
    ctl := { bypassed.ctl with nidt := nidt, dutab := bypassed.ctl.dutab.set 3 ⟨5#3, len⟩ } }

/-- The set-up of vector D3: TACC and the two delay-line entries `x` as given. -/
def strobeState (tacc : BitVec 26) (x : BitVec 18) : State :=
  { running with
    demod := { running.demod with
      phv := true, svalid := true, sprev := BitVec.ofInt 16 (-24576), tcnt := 1#6, tacc := tacc,
      dl := ⟨([6144#18, 6144#18, 6144#18, x, x] ++ List.replicate 43 0#18).toArray, rfl⟩ }
    ctl := { running.ctl with sps := 4#6, sqthr := 0#32, acq := 15#4 } }

/-- The set-up of vector D5. -/
def exampleState : State :=
  { running with
    demod := { running.demod with
      phv := true, svalid := true, sprev := 8000#16, tcnt := 1#6,
      dl := ⟨([6000#18, 6000#18, 6000#18, 3000#18, 3000#18, 3000#18] ++ List.replicate 42 0#18).toArray, rfl⟩ }
    ctl := { running.ctl with sps := 4#6, sqthr := 0#32 } }

/-! ### Well-formedness -/

theorem test_cmd_word_is_no_plain_write : (Instr.csrw 0x02#8 1#32).wellFormed = false := by decide

theorem test_cmd_reset_word_is_no_plain_write :
    (Instr.csrw 0x02#8 0x80000000#32).wellFormed = false := by decide

theorem test_cmd_without_command_is_plain : (Instr.csrw 0x02#8 0x7FFFFFFC#32).wellFormed = true := by decide

theorem test_status_write_is_no_plain_write : (Instr.csrw 0x03#8 0#32).wellFormed = false := by decide

theorem test_symin_write_is_no_plain_write : (Instr.csrw 0x19#8 0#32).wellFormed = false := by decide

theorem test_unlock_has_two_causes :
    (Instr.unlock .energy).wellFormed = true ∧ (Instr.unlock .timing).wellFormed = true ∧
      (Instr.unlock .injected).wellFormed = false := by decide

/-! ### Words written out from 30_encoding.md rules R91 to R95 -/

/-- R91: Q in the upper half, I in the lower; vector B19. -/
theorem test_word_sample : decodeTableWord 32 0xEC782EE0 = some (.sample 12000#16 (-5000#16)) := by decide

/-- R270: the reset input has no word. -/
theorem test_word_rst : decodeTableWord 0 0 = some .rst := by decide

/-- R92: WE 0, ADDR 0x1F (program P4). -/
theorem test_word_csrr : decodeTableWord 48 0x01F00000000 = some (.csrr 0x1F#8) := by decide

/-- R92: WE 1, ADDR 0x05, WDATA 4 (program P3). -/
theorem test_word_csrw : decodeTableWord 48 0x10500000004 = some (.csrw 0x05#8 4#32) := by decide

/-- R94: bit 31 wins over bits 1 and 0. -/
theorem test_word_srst : decodeTableWord 48 0x10280000003 = some .srst := by decide

/-- R94: bit 0, with bit 1 as well. -/
theorem test_word_flush : decodeTableWord 48 0x10200000003 = some (.flush true) := by decide

/-- R94: bit 0 alone (program P3). -/
theorem test_word_flush_alone : decodeTableWord 48 0x10200000001 = some (.flush false) := by decide

/-- R94: bit 1 alone; bits 30:2 are ignored. -/
theorem test_word_clrcnt : decodeTableWord 48 0x1027FFFFFFE = some .clrcnt := by decide

/-- R93: a write of register 0x03 (program P4). -/
theorem test_word_statusw1c : decodeTableWord 48 0x10300001000 = some (.statusw1c 0b10000#5) := by decide

/-- R95: D in bits 1:0, CONF in bits 23:16 (program P2). -/
theorem test_word_sym : decodeTableWord 48 0x11900C80002 = some (.sym 2#2 200#8) := by decide

/-- R95: bit 8. -/
theorem test_word_losinj : decodeTableWord 48 0x11900000100 = some .losinj := by decide

theorem test_word_too_wide : decodeTableWord 32 0x100000000 = none ∧ decodeTableWord 48 0x20000000000 = none := by
  decide

theorem test_fetch_word_runs :
    (let t := afterStep (State.reset.withFetchWord 48 0x10500000004)
     t.ctl.sps = 4#6 ∧ t.io.script = []) := by decide

/-! ### Primitives: vectors A -/

theorem test_floorShr : [floorShr (-1) 4, floorShr (-17) 4, floorShr 15 4, floorShr (-5) 2] = [-1, -2, 0, -2] := by
  decide

theorem test_wrap16s :
    [wrap16s 32768, wrap16s (-32769), wrap16s 65535, wrap16s 49152] = [-32768, 32767, -1, -16384] := by decide

theorem test_sat16 : [sat16 40000, sat16 (-40000), sat16 123] = [32767, -32768, 123] := by decide

theorem test_pmod : pmod (1 <<< 47) Config.gpoly = 0x4D930BDD3B2B := by decide

theorem test_popcount : popcount 0x5575F5FF77FF#48 = 37 := by decide

theorem test_atan_sum : Config.atan.sum = 4654801 := by decide

/-! ### DEMOD: vectors B, C and D -/

theorem test_arg16 :
    ([(0, 0), (1, 0), (1, 1), (0, 1), (-1, 1), (-1, 0), (-1, -1), (0, -1), (1, -1), (32767, 0), (1000, 1000),
      (-32768, -32768), (-32768, 0), (0, -32768), (32767, 32767), (3, 4), (100, 1), (12000, -5000),
      (16781, 10881), (7391, 3061), (-5657, 5657)].map
      fun p : Int × Int => (arg16 (BitVec.ofInt 16 p.1) (BitVec.ofInt 16 p.2)).toNat) =
    [0, 2, 8194, 16387, 24578, 32770, 40962, 49154, 57346, 0, 8192, 40960, 32768, 49152, 8192, 9672, 104, 61418,
      6000, 4096, 24576] := by decide

/-- Vector C1. -/
theorem test_sample_disabled :
    after (.sample 5 5) State.reset =
      { State.reset with demod := { State.reset.demod with tsamp := 1#32 } } := by decide

/-- Vector C2, first sample. -/
theorem test_sample_front_end :
    (let d := (after (.sample 1000 1000) running).demod
     d.energy = 31250#32 ∧ d.php = 8192#16 ∧ d.phv = true ∧ d.foff = 0#24 ∧ d.dl[0] = 0#18 ∧ d.tcnt = 9#6) := by
  decide

/-- Vector C4: the coarse loop and its correction. -/
theorem test_coarse_loop :
    [coarseOffset 0#24 6144 9#4 3413#15, coarseOffset 3072#24 6144 9#4 3413#15,
      coarseOffset 6138#24 (-6144) 9#4 3413#15, coarseOffset 3054#24 100 9#4 3413#15] =
      [3072#24, 6138#24, 3054#24, 3098#24] ∧ roundedOffset 6138#24 = 24 := by decide

/-- Vector C5: the fine loop and its bound. -/
theorem test_fine_loop :
    [fineOffset 3000#24 (-588) 8#4 3413#15, fineOffset 3000#24 (-1) 8#4 3413#15,
      fineOffset 873000#24 8191 8#4 3413#15] = [2412#24, 2999#24, 873728#24] := by decide

/-- Vector D1: slicer, error and confidence, the thresholds among them. -/
theorem test_slicer :
    ([24576, 16384, 16383, 0, -1, -16384, -16385, 32767, -32768, 24608, 12288, -20480].map
      fun sv : Int => (levelDibit (slice sv), slicerError sv, confidence (slicerError sv))) =
    [(1#2, 0, 255#8), (1#2, -8192, 0#8), (0#2, 8191, 0#8), (0#2, -8192, 0#8), (2#2, 8191, 0#8),
      (2#2, -8192, 0#8), (3#2, 8191, 0#8), (1#2, 8191, 0#8), (3#2, -8192, 0#8), (1#2, 32, 254#8),
      (0#2, 4096, 127#8), (3#2, 4096, 127#8)] := by decide

/-- Vector D2: the timing error. -/
theorem test_timing_error :
    timingError true (BitVec.ofInt 16 (-24576)) 24576 4096 = 6144 ∧ timingError true 8000#16 23988 18000 = 978 ∧
      timingError true (BitVec.ofInt 16 (-32768)) 32767 (-32768) = -65535 := by decide

/-- Vector D3, rows 3 and 6: the comparison with TTHR is strict, and a late strobe waits one sample longer. -/
theorem test_timing_correction :
    (let d := (after (.sample 6652 4445) (strobeState 26624#26 (BitVec.ofInt 18 (-4096)))).demod
     d.tacc = 32768#26 ∧ d.tcnt = 4#6 ∧ d.eyeavg = 8063#14 ∧ d.energy = 1000111#32) ∧
    (let d := (after (.sample 6652 4445) (strobeState (BitVec.ofInt 26 (-26625)) (BitVec.ofInt 18 (-8192)))).demod
     d.tacc = 0#26 ∧ d.tcnt = 5#6) := by decide

/-- Vector D5, the example of rule R149. -/
theorem test_strobe_example :
    (let d := (after (.sample 16781 10881) exampleState).demod
     d.foff = 3000#24 ∧ d.dl[0] = 5988#18 ∧ d.sprev = 23988#16 ∧ d.tacc = 978#26 ∧ d.tcnt = 4#6 ∧
       d.eyeavg = 8072#14 ∧ d.acqcnt = 0#10) ∧
    (after (.sample 16781 10881) exampleState).io.trace = [] := by decide

/-- STROBE called by itself, unlocked and with sig false: ACQCNT is cleared (rule R140). -/
theorem test_strobe_without_signal :
    (after (.strobe false) (eyeState false 8192#14 8192#14)).demod.acqcnt = 0#10 := by decide

/-- UNLOCK by divergence: LOS with cause 2 (program P3, continuation 2). -/
theorem test_unlock :
    (after (.unlock .timing) (eyeState true 0#14 0#14)).io.trace = [⟨2#4, 2#64⟩] ∧
      (after (.unlock .timing) (eyeState true 0#14 0#14)).demod.locked = false := by decide

/-! ### FSYNC: vectors E -/

/-- Vector E2: Hamming distances from SYNCPAT. -/
theorem test_sync_distances :
    ([0x5575F5FF77F0#48, 0x5575F5FF77E0#48, 0xD575F5FF77FF#48, 0xAA8A0A008800#48, 0#48].map
      fun w => popcount (w ^^^ 0x5575F5FF77FF#48)) = [4, 5, 1, 48, 37] := by decide

/-- Vector E1: the 24th dibit of the sync word matches. -/
theorem test_dibit_match :
    (let t := after (.dibit 3#2 255#8) (windowState (0x5575F5FF77FF#48 >>> 2) 23#5)
     t.fsync.fstate = .nid ∧ t.fsync.pos = 24#12 ∧ t.fsync.syncq = 48#6 ∧ t.nid.synccnt = 1#32 ∧ t.io.trace = []) := by
  decide

/-- Program P1: the status symbol at index 71 ends the data unit of length 72. -/
theorem test_dibit_payload_end :
    (after (.dibit 1#2 255#8) (payloadState 71#12 72#12)).io.trace =
      [⟨4#4, 0x000000000047FF05#64⟩, ⟨5#4, 0x0000000000480000#64⟩] := by decide

/-- Vector E12. -/
theorem test_losinj :
    (let t := after .losinj bypassed
     t.nid.loscnt = 1#32 ∧ statusRead t = 0x00000100#32 ∧ t.io.trace = [⟨2#4, 3#64⟩]) := by decide

/-- Program P2, step d: END with REASON 2 comes before LOS. -/
theorem test_losmark_closes_the_frame :
    (after (.losmark .injected) (payloadState 100#12 360#12)).io.trace =
      [⟨5#4, 0x0000000000640002#64⟩, ⟨2#4, 3#64⟩] := by decide

/-- SYM without BYPASS is a control error (rule R218 case f). -/
theorem test_sym_without_bypass : after (.sym 1#2 255#8) State.reset = withControlError State.reset := by
  decide

/-- Vector E7, fifth line: the search window expires. -/
theorem test_sym_search_window :
    (let s := { bypassed with
        fsync := { bypassed.fsync with srchcnt := 4#16 }, ctl := { bypassed.ctl with srchwin := 5#16 } }
     (after (.sym 0#2 0#8) s).fsync.srchcnt = 0#16 ∧ statusRead (after (.sym 0#2 0#8) s) = 0x00000800#32) := by
  decide

/-! ### NIDDEC: vectors F -/

/-- Vector F1. -/
theorem test_enc :
    ([0x0000#16, 0x0001#16, 0x0004#16, 0x8000#16, 0x2930#16, 0x2933#16, 0x2935#16, 0x2937#16, 0x293A#16, 0xFFFF#16].map
      enc) =
    [0x0000000000000000#63, 0x0000CD930BDD3B2B#63, 0x000260F93313A1D1#63, 0x400066C985EE9D95#63,
      0x1498079DAEFC00E1#63, 0x14999CBBB94676B7#63, 0x149AAAF796329A1B#63, 0x149BFC428A55D766#63,
      0x149D5D49DF613515#63, 0x7FFFFFFFFFFFFFFF#63] := by decide

/-- Vector F15: the all-zero NID is a codeword. -/
theorem test_niddec_zero :
    (let t := after .niddec (decodeState 0#64 11#4 72#12)
     t.io.trace = [⟨3#4, 0x0000000000002030#64⟩] ∧ t.fsync.fstate = .payload ∧ t.fsync.flen = 396#12) := by
  decide

/-- F1's NID of message 1 with one code bit flipped: DUID 1 has LEN 0, so END follows at once (rules R198 and R201). -/
theorem test_niddec_corrects :
    (after .niddec (decodeState 0x00019B2617BA7654#64 11#4 72#12)).io.trace =
      [⟨3#4, 0x0000000000010130#64⟩, ⟨5#4, 0x0000000000390000#64⟩] := by decide

/-- The HDR words of vectors F3 and F6. -/
theorem test_header_word :
    (tokenWord (.hdr 0#32 0x293#12 3#4 5#3 false 0#4 48#6)).data = 0x000000002933A030#64 ∧
      (tokenWord (.hdr 0#32 0x293#12 3#4 5#3 false 1#4 48#6)).data = 0x000000002933A130#64 := by decide

/-! ### CTL and resets: program P4, vectors E11 and H1 -/

/-- The SYM word of program P3, a SYM word by hand from rule R101, and the DECERR word of program P2. -/
theorem test_symbol_and_error_words :
    tokenWord (.sym 1#2 255#8) = ⟨1#4, 0xFF01#64⟩ ∧ tokenWord (.sym 2#2 200#8) = ⟨1#4, 0xC802#64⟩ ∧
      tokenWord (.decerr 0xBB7A1DE5328CED6E#64) = ⟨6#4, 0xBB7A1DE5328CED6E#64⟩ := by decide

theorem test_csrr_after_reset :
    ([0x00#8, 0x01#8, 0x03#8, 0x05#8, 0x09#8, 0x0A#8, 0x0B#8, 0x0E#8, 0x0F#8, 0x10#8, 0x11#8, 0x1C#8, 0x1E#8,
      0x20#8, 0x21#8, 0x23#8, 0x25#8, 0x27#8, 0x2A#8, 0x2F#8].map fun a =>
      (after (.csrr a) State.reset).io.rdata) =
    [[0x50323501#32], [0#32], [0#32], [0x0000000A#32], [0x00000098#32], [0x00008000#32], [0x0E000C00#32],
      [0xF5FF77FF#32], [0x00005575#32], [0x000006C0#32], [0x0000000B#32], [0x00001FFF#32], [0x00000006#32],
      [0x0000118C#32], [0#32], [0x00005048#32], [0x00003360#32], [0x00002168#32], [0x00004360#32],
      [0x000050D8#32]] := by decide

theorem test_csrr_unmapped :
    (after (.csrr 0x1F#8) State.reset).io.rdata = [0#32] ∧
      statusRead (after (.csrr 0x1F#8) State.reset) = 0x00001000#32 := by decide

theorem test_csrw_odd_sps : after (.csrw 0x05#8 7#32) State.reset = withControlError State.reset := by
  decide

theorem test_csrw_nidcfg_ignores_upper_bits :
    (after (.csrw 0x11#8 0xFFFFFFF4#32) State.reset).ctl.nidt = 4#4 := by decide

theorem test_statusw1c :
    (after (.statusw1c 0b10000#5) { State.reset with evt := 0b11001#5 }).evt = 0b01001#5 := by decide

/-- Vector E11. -/
theorem test_flush_in_payload :
    (let t := after (.flush false) (payloadState 60#12 72#12)
     t.io.trace = [⟨5#4, 0x00000000003C0003#64⟩] ∧ t.fsync.fstate = .search ∧ t.fsync.pos = 0#12) := by
  decide

theorem test_flush_then_clrcnt :
    (after (.flush true) { bypassed with nid := { bypassed.nid with synccnt := 7#32 } }).nid.synccnt = 0#32 := by
  decide

theorem test_clrcnt_keeps_lastnid :
    (after .clrcnt { bypassed with nid := ⟨5#64, 1#32, 2#32, 3#32, 4#32⟩ }).nid = ⟨5#64, 0#32, 0#32, 0#32, 0#32⟩ := by
  decide

theorem test_srst_in_payload :
    after .srst (payloadState 60#12 72#12) = State.reset := by decide

theorem test_rst : after .rst (strobeState 1#26 1#18) = State.reset := by decide

/-! ### Witnesses: for each statement with hypotheses, states and operands that meet them, at the boundary values of
its clauses -/

theorem witness_DecodeOfEncodeIsIdentity :
    (Instr.csrw 0x02#8 4#32).wellFormed = true ∧
      encode (.csrw 0x02#8 4#32) = some (writeEvent 0x02#8 4#32) := ⟨by decide, rfl⟩

theorem witness_TokenWordsAreDistinct :
    tokenWord (.pay 3#2 true 255#8 4095#12) = tokenWord (.pay 3#2 true 255#8 4095#12) := rfl

theorem witness_StepRunsTheDecodedEvent :
    (present (.transaction 0x11900000100#41) bypassed).io.script = .transaction 0x11900000100#41 :: [] ∧
    decode (.transaction 0x11900000100#41) = .losinj ∧ Instr.losinj.wellFormed = true ∧
    decodeTableWord 48 0x11900000100 = some .losinj := by decide

theorem witness_StepWithoutAnEventChangesNothing : State.reset.io.script = [] := rfl

theorem witness_AnOperationEmitsAtMostThreeTokensOfSixKinds :
    exec .losinj bypassed = .next (after .losinj bypassed) := rfl

theorem witness_SampleAlwaysCountsAndIsGated :
    State.reset.ctl.en = false ∧ State.reset.ctl.bypass = false ∧ bypassed.ctl.bypass = true := ⟨rfl, rfl, rfl⟩

theorem witness_DemodulatedSampleFrontEnd :
    (let s := energyState 0#32 0#32 6#4
     s.ctl.en = true ∧ s.ctl.bypass = false ∧ s.demod.locked = false ∧
       s.ctl.sqthr.toNat ≤ (after (.sample 0 0) s).demod.energy.toNat) ∧
    (let s := energyState 0#32 1#32 6#4
     s.ctl.en = true ∧ s.ctl.bypass = false ∧ s.demod.locked = false ∧
       (after (.sample 0 0) s).demod.energy.toNat < s.ctl.sqthr.toNat) ∧
    (let s := { clockState 2#6 with demod := { (clockState 2#6).demod with locked := true } }
     s.ctl.en = true ∧ s.ctl.bypass = false ∧ s.demod.locked = true ∧ 1 < s.demod.tcnt.toNat) := by decide

/-- Unlocked and locked, with and without a signal. -/
theorem witness_SampleBetweenStrobesCountsDown :
    ((clockState 2#6).ctl.en = true ∧ (clockState 2#6).ctl.bypass = false ∧ 1 < (clockState 2#6).demod.tcnt.toNat) ∧
    (let s := energyState 0#32 0#32 6#4
     1 < s.demod.tcnt.toNat ∧ s.demod.locked = false ∧
       s.ctl.sqthr.toNat ≤ (after (.sample 0 0) s).demod.energy.toNat) ∧
    (let s := energyState 0#32 1#32 6#4
     1 < s.demod.tcnt.toNat ∧ (after (.sample 0 0) s).demod.energy.toNat < s.ctl.sqthr.toNat) ∧
    (let s := eyeState true 0#14 0#14
     s.ctl.en = true ∧ s.ctl.bypass = false ∧ 1 < s.demod.tcnt.toNat ∧ s.demod.locked = true) := by decide

theorem witness_SampleAtAStrobeCallsStrobe :
    (clockState 1#6).ctl.en = true ∧ (clockState 1#6).ctl.bypass = false ∧
      (clockState 1#6).demod.tcnt.toNat ≤ 1 ∧ (clockState 0#6).demod.tcnt.toNat ≤ 1 ∧
    (let s := { clockState 1#6 with demod := { (clockState 1#6).demod with locked := true } }
     s.ctl.en = true ∧ s.ctl.bypass = false ∧ s.demod.tcnt.toNat ≤ 1 ∧ s.demod.locked = true) := by decide

theorem witness_EnergyStaysBetweenOldValueAndPower :
    (let s := energyState 0x80000000#32 0#32 0#4
     s.ctl.en = true ∧ s.ctl.bypass = false ∧ s.demod.energy.toNat ≤ 2 ^ 31 ∧ s.ctl.enshift = 0#4 ∧
       power (-32768) (-32767) < s.demod.energy.toNat) ∧
    (let s := energyState 1#32 0#32 6#4
     s.ctl.en = true ∧ s.ctl.bypass = false ∧ (s.demod.energy.toNat : Int) + 2 ^ s.ctl.enshift.toNat = power 8 1) := by
  decide

theorem witness_NegatedSampleIsHalfATurnAway :
    running.ctl.en = true ∧ running.ctl.bypass = false ∧
    (-32767 : Component).toInt < 0 ∧ -32768 < (-32767 : Component).toInt ∧ -32768 < (-32767 : Component).toInt ∧
    exec (.sample (-32767) (-32767)) running = .next (after (.sample (-32767) (-32767)) running) ∧
    exec (.sample (- -32767) (- -32767)) running = .next (after (.sample (- -32767) (- -32767)) running) :=
  ⟨rfl, rfl, by decide, by decide, by decide, rfl, rfl⟩

theorem legalCtl_reset : LegalCtl State.reset.ctl := ⟨by decide, by decide⟩

/-- The three clauses at the threshold TTHR = 32768 (the first strobe has no timing error). -/
theorem witness_StrobeUpdatesItsLoops :
    LegalCtl (timingState 32768#26).ctl ∧
    (let s := timingState 32769#26
     s.demod.svalid = false ∧ (s.ctl.tthr.toNat : Int) < s.demod.tacc.toInt) ∧
    (let s := timingState (BitVec.ofInt 26 (-32769))
     s.demod.svalid = false ∧ s.demod.tacc.toInt < -(s.ctl.tthr.toNat : Int)) ∧
    (let s := timingState 32768#26
     s.demod.svalid = false ∧ -(s.ctl.tthr.toNat : Int) ≤ s.demod.tacc.toInt ∧
       s.demod.tacc.toInt ≤ (s.ctl.tthr.toNat : Int)) ∧
    (let s := timingState (BitVec.ofInt 26 (-32768))
     s.demod.svalid = false ∧ -(s.ctl.tthr.toNat : Int) ≤ s.demod.tacc.toInt ∧
       s.demod.tacc.toInt ≤ (s.ctl.tthr.toNat : Int)) :=
  ⟨legalCtl_reset.casesOn fun h h' => ⟨h, h'⟩, by decide, by decide, by decide, by decide⟩

theorem witness_StrobeAcquires :
    (let s := eyeState false 8192#14 0#14
     s.demod.locked = false ∧ eyeAfter s ≤ s.ctl.lthr.toNat) ∧
    (let s := eyeState false 8191#14 0#14
     s.demod.locked = false ∧ s.ctl.lthr.toNat < eyeAfter s) := by decide

theorem witness_StrobeLosesLock :
    (let s := eyeState true 0#14 8191#14
     s.demod.locked = true ∧ s.ctl.uthr.toNat < eyeAfter s) := by decide

/-- A locked strobe with ESHIFT 0 whose soft value is the one delay-line entry `x`. -/
def symbolState (x : Int) : State :=
  { eyeState true 0#14 8192#14 with
    demod := { (eyeState true 0#14 8192#14).demod with
      dl := ⟨(BitVec.ofInt 18 x :: List.replicate 47 0#18).toArray, rfl⟩ } }

/-- The four ranges of the slicer at both ends, the saturated soft values among them. -/
theorem witness_StrobeOutputsTheSymbol :
    ∀ x ∈ [-40000, -32768, -16385, -16384, -1, 0, 16383, 16384, 32767, 40000],
      (symbolState x).demod.locked = true ∧ eyeAfter (symbolState x) ≤ (symbolState x).ctl.uthr.toNat ∧
        softAfter (symbolState x) = clamp x (-32768) 32767 := by decide

/-- The dibits of those strobes, by the table of rule R132. -/
theorem test_strobe_dibits :
    ([-16385, -16384, -1, 0, 16383, 16384].map fun x =>
      (after (.strobe true) (symbolState x)).fsync.sr) = [3#48, 2#48, 2#48, 0#48, 0#48, 1#48] := by decide

/-- Distance 4 with SYNCTHR 4, and the last dibit that fills the window. -/
theorem witness_DibitThatCompletesASyncStartsACandidate :
    CompletesSync 0#2 (windowState (0x5575F5FF77F0#48 >>> 2) 23#5) := by decide

/-- Distance 5 with SYNCTHR 4, and a full match with one dibit too few; the window never expires, expires at 4 and at
3, and does not expire. -/
theorem witness_DibitWithoutAMatchInSearchCounts :
    (let s := windowState (0x5575F5FF77E0#48 >>> 2) 23#5
     s.fsync.fstate = .search ∧ ¬ CompletesSync 0#2 s) ∧
    (let s := windowState (0x5575F5FF77FF#48 >>> 2) 22#5
     s.fsync.fstate = .search ∧ ¬ CompletesSync 3#2 s ∧ s.ctl.srchwin ≠ 0#16 ∧
       s.fsync.srchcnt.toNat + 1 < s.ctl.srchwin.toNat) ∧
    (let s := { bypassed with ctl := { bypassed.ctl with srchwin := 0#16 } }
     s.fsync.fstate = .search ∧ ¬ CompletesSync 0#2 s ∧ s.ctl.srchwin = 0#16) ∧
    (let s := { bypassed with ctl := { bypassed.ctl with srchwin := 1#16 } }
     s.fsync.fstate = .search ∧ ¬ CompletesSync 0#2 s ∧ s.ctl.srchwin ≠ 0#16 ∧
       s.ctl.srchwin.toNat ≤ s.fsync.srchcnt.toNat + 1) := by decide

theorem witness_DibitCollectsTheNid :
    (let s := nidState 35#12 11#6
     s.fsync.fstate = .nid ∧ ¬ CompletesSync 0#2 s ∧ s.fsync.pos.toNat % 36 = 35) ∧
    (let s := nidState 36#12 11#6
     s.fsync.fstate = .nid ∧ ¬ CompletesSync 0#2 s ∧ s.fsync.pos.toNat % 36 ≠ 35 ∧
       s.fsync.nidn + 1 ≠ 32#6) ∧
    (let s := nidState 56#12 31#6
     s.fsync.fstate = .nid ∧ ¬ CompletesSync 0#2 s ∧ s.fsync.pos.toNat % 36 ≠ 35 ∧
       s.fsync.nidn + 1 = 32#6) := by decide

theorem legal_nidState : Legal (nidState 56#12 31#6) := by
  refine ⟨⟨by decide, by decide, ?_, by decide, by decide, by decide⟩,
    ⟨by decide, by decide, by decide, fun _ => by decide, fun h => ?_, fun _ => rfl⟩, ⟨by decide, by decide⟩⟩
  · show ∀ x ∈ List.replicate 48 0#18, _
    intro x hx
    rw [List.eq_of_mem_replicate hx]
    decide
  · exact absurd h (by decide)

theorem witness_NiddecRunsAtIndex56 :
    Legal (nidState 56#12 31#6) ∧
    (let s := nidState 56#12 31#6
     s.fsync.fstate = .nid ∧ s.fsync.pos.toNat % 36 ≠ 35 ∧ s.fsync.nidn + 1 = 32#6 ∧ ¬ CompletesSync 0#2 s) :=
  ⟨legal_nidState, by decide⟩

theorem witness_DibitForwardsThePayload :
    (let s := payloadState 57#12 59#12
     s.fsync.fstate = .payload ∧ s.fsync.pos.toNat < 4095 ∧ ¬ CompletesSync 0#2 s ∧
       s.fsync.pos.toNat + 1 < s.fsync.flen.toNat) ∧
    (let s := payloadState 57#12 58#12
     s.fsync.fstate = .payload ∧ s.fsync.pos.toNat < 4095 ∧ ¬ CompletesSync 0#2 s ∧
       s.fsync.flen.toNat ≤ s.fsync.pos.toNat + 1) ∧
    (let s := payloadState 4094#12 4095#12
     s.fsync.fstate = .payload ∧ s.fsync.pos.toNat < 4095 ∧ ¬ CompletesSync 0#2 s ∧
       s.fsync.flen.toNat ≤ s.fsync.pos.toNat + 1) := by decide

/-- The first 22 dibits of the frame sync (rule R98). -/
def syncDibits : List Dibit :=
  [1#2, 1#2, 1#2, 1#2, 1#2, 3#2, 1#2, 1#2, 3#2, 3#2, 1#2, 1#2, 3#2, 3#2, 3#2, 3#2, 1#2, 3#2, 1#2, 3#2, 3#2, 3#2]

/-- The dibits `ds`, each with a confidence of its own. -/
def confident (ds : List Dibit) : List (Dibit × BitVec 8) := ds.zipIdx.map fun x => (x.1, BitVec.ofNat 8 x.2)

/-- Vectors E3 and E4: the words 0x5575F5FF77F0 (4 errors) and 0x5575F5FF77E0 (5 errors) with SYNCTHR 4. -/
theorem witness_TwentyFourDibitsDecideTheMatch :
    (let ds := confident (syncDibits ++ [0#2])
     ∃ s23 t, ds.length = 23 ∧ execAll (ds.map fun x => Instr.dibit x.1 x.2) bypassed = .next s23 ∧
      exec (.dibit 0#2 255#8) s23 = .next t ∧ bypassed.ctl.holdoff ≠ true) ∧
    (let ds := confident (syncDibits.dropLast ++ [2#2, 0#2])
     ∃ s23 t, ds.length = 23 ∧ execAll (ds.map fun x => Instr.dibit x.1 x.2) bypassed = .next s23 ∧
      exec (.dibit 0#2 255#8) s23 = .next t) ∧
    popcount (BitVec.ofNat 48 (packDibits ((confident (syncDibits ++ [0#2])).map Prod.fst ++ [0#2])) ^^^
      bypassed.ctl.syncpat) = 4 ∧
    popcount (BitVec.ofNat 48 (packDibits ((confident (syncDibits.dropLast ++ [2#2, 0#2])).map Prod.fst ++ [0#2])) ^^^
      bypassed.ctl.syncpat) = 5 ∧ bypassed.ctl.syncthr = 4#6 :=
  ⟨⟨_, _, rfl, rfl, rfl, by decide⟩, ⟨_, _, rfl, rfl, rfl⟩, by decide, by decide, rfl⟩

/-- Vector F10, eleven errors, with LEN 57 and 58; and no error with NIDT 0. -/
theorem witness_NiddecAcceptsANearbyCodeword :
    (let s := decodeState 0xBB7A1DE5728CED6E#64 11#4 57#12
     s.ctl.nidt.toNat ≤ 11 ∧ popcount (s.fsync.nidacc.extractLsb' 1 63 ^^^ enc 0x2933#16) = 11 ∧
       (s.ctl.dutab[3]).len.toNat ≤ s.fsync.pos.toNat) ∧
    (let s := decodeState 0xBB7A1DE5728CED6E#64 11#4 58#12
     s.ctl.nidt.toNat ≤ 11 ∧ popcount (s.fsync.nidacc.extractLsb' 1 63 ^^^ enc 0x2933#16) ≤ s.ctl.nidt.toNat ∧
       s.fsync.pos.toNat < (s.ctl.dutab[3]).len.toNat) ∧
    (let s := decodeState 0x29333977728CED6E#64 0#4 58#12
     popcount (s.fsync.nidacc.extractLsb' 1 63 ^^^ enc 0x2933#16) ≤ s.ctl.nidt.toNat) := by decide

theorem witness_NiddecAcceptsANearbyCodeword_lastnid :
    exec .niddec (decodeState 0#64 11#4 72#12) = .next (after .niddec (decodeState 0#64 11#4 72#12)) := rfl

/-- The word 1 is no codeword: a message other than 0 sets a bit above bit 46 of its codeword. -/
theorem one_is_no_codeword (m : BitVec 16) : 1#63 ≠ enc m := by
  intro h
  have ht : (enc m).toNat >>> 47 = 0 := by rw [← h]; rfl
  have hp : pmod (m.toNat <<< 47) Config.gpoly < 2 ^ 47 := by
    have := bitlen_pmod_lt gpoly_ne_zero (m.toNat <<< 47)
    rw [bitlen_gpoly] at this
    exact bitlen_le_iff.1 (by omega)
  rw [enc_toNat, Nat.shiftRight_xor_distrib, Nat.shiftLeft_shiftRight, Nat.shiftRight_eq_div_pow,
    Nat.div_eq_of_lt hp, Nat.xor_zero] at ht
  have hm : m = 0#16 := BitVec.eq_of_toNat_eq ht
  subst hm
  exact absurd h (by decide)

theorem popcount_pos {w : Nat} {v : BitVec w} (h : v ≠ 0#w) : 0 < popcount v := by
  rw [popcount, List.countP_pos_iff]
  by_contra hc
  apply h
  apply BitVec.eq_of_getLsbD_eq
  intro i hi
  by_contra hb
  exact hc ⟨i, List.mem_range.2 hi, by simpa using hb⟩

/-- With NIDT 0 the word 1 is rejected: it is no codeword. -/
theorem witness_NiddecRejectsWhenNoCodewordIsNear :
    (let s := decodeState 2#64 0#4 58#12
     ∀ m, s.ctl.nidt.toNat < popcount (s.fsync.nidacc.extractLsb' 1 63 ^^^ enc m)) := by
  intro s m
  refine popcount_pos fun h => one_is_no_codeword m ?_
  have h1 : s.fsync.nidacc.extractLsb' 1 63 = 1#63 := by decide
  rw [h1] at h
  exact BitVec.xor_eq_zero_iff.1 h

/-- Twelve errors (vector F11) with NIDT 10, and five (vector F14) with NIDT 4. -/
theorem witness_NiddecRejectsBeyondItsRadius :
    (let s := decodeState 0xBB7A1DE5328CED6E#64 10#4 58#12
     let e := popcount (s.fsync.nidacc.extractLsb' 1 63 ^^^ enc 0x2933#16)
     s.ctl.nidt.toNat < e ∧ e + s.ctl.nidt.toNat = 22) ∧
    (let s := decodeState 0x2933197F708C6D4E#64 4#4 58#12
     let e := popcount (s.fsync.nidacc.extractLsb' 1 63 ^^^ enc 0x2933#16)
     s.ctl.nidt.toNat + 1 = e ∧ e + s.ctl.nidt.toNat ≤ 22) := by decide

/-- A word at distance 11 from a codeword (vector F10), and two different messages. -/
theorem witness_NidCodeHasMinimumDistance23 :
    popcount (0xBB7A1DE5728CED6E#64 >>> 1 |>.setWidth 63 |> (· ^^^ enc 0x2933#16)) ≤ 11 ∧
      (0x2933#16 : BitVec 16) ≠ 0x2937#16 ∧ (0x0001#16 : BitVec 16) ≠ 0#16 := by decide

theorem witness_CodewordsAreTheMultiplesOfGpoly :
    pmod (enc 0x2933#16).toNat Config.gpoly = 0 ∧ (0x2933#16 : BitVec 16) ≠ 0x2937#16 := by decide

theorem witness_CsrrOnlyReturnsAWord :
    ¬ Unmapped 0x1E#8 ∧ Unmapped 0x1F#8 ∧ ¬ Unmapped 0x20#8 ∧ ¬ Unmapped 0x2F#8 ∧ Unmapped 0x30#8 ∧
      Unmapped 0xFF#8 := by decide

theorem witness_CsrrReturnsTheRegisterTable : Unmapped 0x1F#8 ∧ Unmapped 0x30#8 := by decide

theorem witness_CsrwStoresTheRegisterTable :
    ReadOnly 0x00#8 ∧ ReadOnly 0x12#8 ∧ ReadOnly 0x18#8 ∧ ReadOnly 0x1A#8 ∧ ReadOnly 0x1D#8 ∧
      Unmapped 0x1F#8 ∧ Unmapped 0x30#8 ∧ ¬ ReadOnly 0x01#8 ∧ ¬ ReadOnly 0x11#8 ∧ ¬ ReadOnly 0x19#8 ∧
      ¬ ReadOnly 0x1E#8 := by decide

theorem witness_ControlErrorsAreExactlyTheListedOnes :
    Unmapped 0x1F#8 ∧ ¬ Unmapped 0x20#8 ∧
    WriteError 0x05#8 2#32 bypassed ∧ WriteError 0x05#8 5#32 bypassed ∧ WriteError 0x05#8 34#32 bypassed ∧
    WriteError 0x11#8 12#32 bypassed ∧ WriteError 0x19#8 0#32 State.reset ∧
    ¬ WriteError 0x05#8 4#32 bypassed ∧ ¬ WriteError 0x05#8 32#32 bypassed ∧
    ¬ WriteError 0x11#8 11#32 bypassed ∧ ¬ WriteError 0x19#8 0#32 bypassed ∧
    State.reset.ctl.bypass = false ∧ bypassed.ctl.bypass = true := by
  refine ⟨?_, ?_, ?_, ?_, ?_, ?_, ?_, ?_, ?_, ?_, ?_, rfl, rfl⟩ <;> decide

theorem witness_ControlErrors_next :
    exec (.csrr 0x20#8) bypassed = .next (after (.csrr 0x20#8) bypassed) ∧
    exec (.csrw 0x05#8 4#32) bypassed = .next (after (.csrw 0x05#8 4#32) bypassed) ∧
    exec .losinj bypassed = .next (after .losinj bypassed) ∧
    exec (.sym 1#2 255#8) bypassed = .next (after (.sym 1#2 255#8) bypassed) ∧
    exec (.statusw1c 0b10000#5) bypassed = .next (after (.statusw1c 0b10000#5) bypassed) :=
  ⟨rfl, rfl, rfl, rfl, rfl⟩

/-- CTLERR_EVT is set after each of the four kinds of operation of the last clause. -/
theorem witness_ControlErrors_set :
    (after (.csrr 0x1F#8) State.reset).evt.getLsbD 4 = true ∧
    (after (.csrw 0x05#8 5#32) State.reset).evt.getLsbD 4 = true ∧
    (after .losinj State.reset).evt.getLsbD 4 = true ∧ (after (.sym 1#2 255#8) State.reset).evt.getLsbD 4 = true ∧
    (after .clrcnt { State.reset with evt := 0b10000#5 }).evt.getLsbD 4 = true := by decide

theorem witness_ReadBackReturnsTheWrittenFields :
    ¬ WriteError 0x05#8 32#32 State.reset ∧ ¬ WriteError 0x11#8 11#32 State.reset ∧
      ¬ WriteError 0x2F#8 0xFFFFFFFF#32 State.reset ∧ (0x20#8).toNat / 16 = 2 ∧ (0x2F#8).toNat / 16 = 2 ∧
      ¬ WriteError 0x20#8 0#32 State.reset ∧ ¬ WriteError 0x01#8 0xFFFFFFFF#32 State.reset := by
  refine ⟨?_, ?_, ?_, ?_, ?_, ?_, ?_⟩ <;> decide

theorem witness_StatusWriteClearsExactlyTheNamedBits :
    (present (writeEvent 0x03#8 0x1000#32) bypassed).io.script = writeEvent 0x03#8 0x1000#32 :: [] ∧
    exec .losinj { bypassed with evt := 0b10000#5 } = .next (after .losinj { bypassed with evt := 0b10000#5 }) ∧
    (0b10000#5).getLsbD 4 = true := ⟨rfl, rfl, by decide⟩

theorem witness_CmdWriteOrdersItsCommands :
    (0x80000003#32).getLsbD 31 = true ∧
    ((0x7FFFFFFD#32).getLsbD 31 = false ∧ (0x7FFFFFFD#32).getLsbD 0 = true ∧ (0x7FFFFFFD#32).getLsbD 1 = false) ∧
    ((0x7FFFFFFE#32).getLsbD 31 = false ∧ (0x7FFFFFFE#32).getLsbD 0 = false ∧ (0x7FFFFFFE#32).getLsbD 1 = true) ∧
    ((3#32).getLsbD 31 = false ∧ (3#32).getLsbD 0 = true ∧ (3#32).getLsbD 1 = true) ∧
    ((0x7FFFFFFC#32).getLsbD 31 = false ∧ (0x7FFFFFFC#32).getLsbD 0 = false ∧
      (0x7FFFFFFC#32).getLsbD 1 = false) := by decide

theorem witness_InjectionNeedsBypassAndBypassesDemod :
    State.reset.ctl.bypass = false ∧ bypassed.ctl.bypass = true ∧ (0x100#32).getLsbD 8 = true ∧
      (0xFF#32).getLsbD 8 = false := by decide

theorem witness_StepKeepsLegal :
    Legal (nidState 56#12 31#6) ∧ step (nidState 56#12 31#6) = .next (afterStep (nidState 56#12 31#6)) :=
  ⟨legal_nidState, rfl⟩

/-- The state of the statement with an event pending that is no reset. -/
def pendingState : State := present (.transaction 0x11900000100#41) (nidState 56#12 31#6)

theorem witness_StepKeepsTheTraceGrammar :
    Legal pendingState ∧ WellFormedTrace pendingState ∧
    (∀ ev rest, pendingState.io.script = ev :: rest → decode ev = .rst ∨ decode ev = .srst →
      pendingState.fsync.fstate ≠ .payload) ∧
    step pendingState = .next (afterStep pendingState) :=
  ⟨⟨legal_nidState.demod, legal_nidState.fsync, legal_nidState.ctl⟩, ⟨[], rfl, rfl⟩, fun _ _ _ _ => by decide, rfl⟩

/-- A reset pending while FSTATE is NID, which the statement covers. -/
theorem witness_StepKeepsTheTraceGrammar_reset :
    (let s := present (.transaction 0x10280000000#41) (nidState 56#12 31#6)
     Legal s ∧ WellFormedTrace s ∧ decode (.transaction 0x10280000000#41) = .srst ∧ s.fsync.fstate ≠ .payload ∧
       step s = .next (afterStep s)) :=
  ⟨⟨legal_nidState.demod, legal_nidState.fsync, legal_nidState.ctl⟩, ⟨[], rfl, rfl⟩, by decide, by decide, rfl⟩

theorem witness_CountersCountTheTokens :
    exec (.losmark .energy) bypassed = .next (after (.losmark .energy) bypassed) ∧
    Instr.losmark .energy ≠ .rst ∧ Instr.losmark .energy ≠ .srst ∧ Instr.losmark .energy ≠ .clrcnt ∧
    Instr.losmark .energy ≠ .flush true ∧ (∀ v, Instr.losmark .energy ≠ .csrw 0x02#8 v) :=
  ⟨rfl, by decide, by decide, by decide, by decide, fun _ h => by cases h⟩

theorem witness_OnlyWritesAndResetsChangeConfiguration :
    exec (.sample 1 1) running = .next (after (.sample 1 1) running) ∧
    (∀ a v, Instr.sample 1 1 ≠ .csrw a v) ∧ Instr.sample 1 1 ≠ .rst ∧ Instr.sample 1 1 ≠ .srst :=
  ⟨rfl, (fun _ _ h => by cases h), by decide, by decide⟩

theorem witness_DemodNeverReadsFsyncOrNiddec :
    (let s := payloadState 57#12 59#12
     s.demod = bypassed.demod ∧ s.ctl = bypassed.ctl ∧ s ≠ bypassed ∧
       exec (.sample 1 1) s = .next (after (.sample 1 1) s) ∧
       exec (.sample 1 1) bypassed = .next (after (.sample 1 1) bypassed)) :=
  ⟨rfl, rfl, by decide, rfl, rfl⟩

theorem witness_UnlockedDemodEmitsNothing : running.demod.locked = false := rfl

theorem witness_FsyncNeverTouchesDemod : (payloadState 57#12 59#12).fsync.fstate ≠ .nid := by decide

/-- Transactions on both sides of bit 40, and CMD and SYMIN data on both sides of each deciding bit. -/
theorem witness_EventsDecodeByTheirFields :
    (0x0FFFFFFFFFF#41).toNat < 2 ^ 40 ∧
    ([0x10280000000#41, 0x1027FFFFFFF#41, 0x1027FFFFFFE#41, 0x1027FFFFFFC#41, 0x10300001F00#41, 0x11900000100#41,
        0x119FFFFFEFF#41, 0x11F00000000#41].map fun w =>
      (decide (2 ^ 40 ≤ w.toNat), w.toNat / 2 ^ 32 % 2 ^ 8, w.toNat % 2 ^ 32 / 2 ^ 31, w.toNat % 4,
        w.toNat / 2 ^ 8 % 2)) =
      [(true, 2, 1, 0, 0), (true, 2, 0, 3, 1), (true, 2, 0, 2, 1), (true, 2, 0, 0, 1), (true, 3, 0, 0, 1),
        (true, 25, 0, 0, 1), (true, 25, 1, 3, 0), (true, 31, 0, 0, 0)] := by decide

theorem witness_NotationPrimitivesAreTheSpecs :
    (-32768 : Int) ≤ 32767 ∧ (-32769 : Int) < -32768 ∧ (32767 : Int) < 32768 ∧ (0 : Int) ≤ 0 := by decide

end Sys2Proof.Tests
end

namespace Sys2Proof.Machine

/-- A masked word, read bit by bit: the form of the irq level and of the sticky-bit tests. -/
theorem and_ne_zero_iff_exists_bit {w : Nat} (x y : BitVec w) :
    x &&& y ≠ 0#w ↔ ∃ i < w, x.getLsbD i = true ∧ y.getLsbD i = true := by
  rw [Ne, BitVec.eq_of_getLsbD_eq_iff]
  simp

/-- The irq level as a proposition about the pending and the enable words (rule R65). -/
theorem irq_eq_true_iff (s : State) : irq s = true ↔ s.evt &&& s.ctl.irqen ≠ 0#5 :=
  bne_iff_ne

/-- Settles O46: the masked word is nonzero exactly when some bit of it is set. -/
theorem irqIsPendingAndEnabled : Obligations.IrqIsPendingAndEnabled := by
  intro s
  exact (irq_eq_true_iff s).trans (and_ne_zero_iff_exists_bit s.evt s.ctl.irqen)

end Sys2Proof.Machine

namespace Sys2Proof.Machine

/-! ### Register numbers and the read port (O34) -/

/-- The high digit of a register number, as the number it is compared with. -/
theorem highDigit_eq_two_iff (a : RegNum) : a.extractLsb' 4 4 = 2#4 ↔ 0x20 ≤ a.toNat ∧ a.toNat < 0x30 := by
  have ha := a.isLt
  rw [← BitVec.toNat_inj, BitVec.extractLsb'_toNat, Nat.shiftRight_eq_div_pow, BitVec.toNat_ofNat]
  omega

/-- The register map of rule R43 names a register at every number but the unmapped ones. -/
theorem csrOf_eq_none_iff (a : RegNum) : csrOf a = none ↔ Unmapped a := by
  by_cases hd : a.extractLsb' 4 4 = 2#4
  · have hr := (highDigit_eq_two_iff a).1 hd
    simp only [csrOf, if_pos hd, reduceCtorEq, false_iff]
    omega
  · have hr := mt (highDigit_eq_two_iff a).2 hd
    have hl : fixedCsrs.length = 0x1F := rfl
    rw [csrOf, if_neg hd, List.getElem?_eq_none_iff, hl]
    omega

theorem readPort_of_csrOf_some {a : RegNum} {r : Csr} (h : csrOf a = some r) (s : State) :
    readPort a s = returnWord (readCsr r s) s := by
  simp only [readPort, h]

theorem readPort_of_unmapped {a : RegNum} (h : Unmapped a) (s : State) :
    readPort a s = returnWord 0#32 (controlError s) := by
  simp only [readPort, (csrOf_eq_none_iff a).2 h]

/-- Settles O34: the register map decides whether the read is a control error; nothing else is written. -/
theorem csrrOnlyReturnsAWord : Obligations.CsrrOnlyReturnsAWord := by
  intro a s
  cases h : csrOf a with
  | none =>
    have hu : Unmapped a := (csrOf_eq_none_iff a).1 h
    exact ⟨0#32, fun hm => absurd hu hm, fun _ => ⟨rfl, congrArg _ (readPort_of_unmapped hu s)⟩⟩
  | some r =>
    have hm : ¬ Unmapped a := fun hu => by simp [(csrOf_eq_none_iff a).2 hu] at h
    exact ⟨readCsr r s, fun _ => congrArg _ (readPort_of_csrOf_some h s), fun hu => absurd hu hm⟩

/-! ### How many tokens an operation emits (O8) -/

/-- Going from `s` to `t` appends at most `n` tokens to the output trace, and removes none. -/
def EmitsAtMost (n : Nat) (s t : State) : Prop := ∃ toks, Emits s t toks ∧ toks.length ≤ n

theorem Emits.atMost {n : Nat} {s t : State} {toks : List Token} (h : Emits s t toks)
    (hn : toks.length ≤ n) : EmitsAtMost n s t := ⟨toks, h, hn⟩

theorem EmitsAtMost.mono {m n : Nat} {s t : State} (h : EmitsAtMost m s t) (hmn : m ≤ n) :
    EmitsAtMost n s t := by
  obtain ⟨toks, he, hl⟩ := h
  exact he.atMost (hl.trans hmn)

theorem EmitsAtMost.trans {m n : Nat} {s t u : State} (h : EmitsAtMost m s t) (h' : EmitsAtMost n t u) :
    EmitsAtMost (m + n) s u := by
  obtain ⟨xs, hx, hm⟩ := h
  obtain ⟨ys, hy, hn⟩ := h'
  exact (hx.trans hy).atMost (by rw [List.length_append]; omega)

/-- An operation that leaves the trace alone is within every bound. -/
theorem emitsAtMost_of_trace {n : Nat} {s t : State} (h : t.io.trace = s.io.trace) : EmitsAtMost n s t :=
  (emits_nil h).atMost (Nat.zero_le n)

/-- Steps before and after an emission that leave the trace alone do not count. -/
theorem EmitsAtMost.of_trace {n : Nat} {s s' t t' : State} (h : EmitsAtMost n s' t')
    (hs : s'.io.trace = s.io.trace) (ht : t.io.trace = t'.io.trace) : EmitsAtMost n s t := by
  obtain ⟨toks, he, hl⟩ := h
  exact ⟨toks, by rw [Emits, ht, ← hs, he], hl⟩

theorem emit_emitsAtMost (t : Token) (s : State) : EmitsAtMost 1 s (emit t s) :=
  (emits_emit t s).atMost le_rfl

theorem closeFrame_emitsAtMost (reason : EndReason) (s : State) : EmitsAtMost 1 s (closeFrame reason s) :=
  (emits_closeFrame reason s).atMost (closeTokens_length reason s.fsync)

/-- LOSMARK emits LOS, and END before it where a frame is open. -/
theorem losMark_emitsAtMost (cause : LosCause) (s : State) : EmitsAtMost 2 s (losMark cause s) :=
  (losMark_emits cause s).atMost (by
    have := closeTokens_length .los s.fsync
    rw [List.length_append, List.length_singleton]
    omega)

/-- NIDDEC emits HDR and perhaps END, or DECERR. -/
theorem nidDecode_emitsAtMost (s : State) : EmitsAtMost 2 s (nidDecode s) := by
  rcases nidDecode_emits s with ⟨c, -, toks, he, ⟨-, rfl, -⟩ | ⟨-, rfl, -⟩⟩ | ⟨-, he, -⟩
  · exact he.atMost le_rfl
  · exact he.atMost (by simp)
  · exact he.atMost (by simp)

theorem searchDibit_trace (s : State) : (searchDibit s).io.trace = s.io.trace := by
  rcases searchDibit_cases s with ⟨-, h⟩ | ⟨-, -, h⟩ | ⟨-, -, h⟩ <;> exact congrArg (·.io.trace) h

theorem nidDibit_emitsAtMost (d : Dibit) (s : State) : EmitsAtMost 2 s (nidDibit d s) := by
  rcases nidDibit_cases d s with ⟨-, h⟩ | ⟨-, -, h⟩ | ⟨-, -, h⟩ <;> rw [h]
  · exact emitsAtMost_of_trace rfl
  · exact (nidDecode_emitsAtMost (collectDibit d (advancePos s))).of_trace rfl rfl
  · exact emitsAtMost_of_trace rfl

/-- A payload dibit emits PAY, and END after it at the end of the frame. -/
theorem payloadDibit_emitsAtMost (d : Dibit) (conf : BitVec 8) (s : State) :
    EmitsAtMost 2 s (payloadDibit d conf s) := by
  have hpay := emit_emitsAtMost (payToken d conf s.fsync) s
  rcases payloadDibit_cases d conf s with ⟨-, h⟩ | ⟨-, h⟩ <;> rw [h]
  · exact (hpay.trans (emit_emitsAtMost (.frameEnd .len (s.fsync.pos + 1)) _)).of_trace rfl rfl
  · exact (hpay.mono one_le_two).of_trace rfl rfl

theorem startCandidate_emitsAtMost (dist : Nat) (s : State) : EmitsAtMost 1 s (startCandidate dist s) :=
  (closeFrame_emitsAtMost .resync s).of_trace rfl rfl

/-- DIBIT emits at most two tokens, whether it completes a match or not. -/
theorem takeDibit_emitsAtMost (d : Dibit) (conf : BitVec 8) (s : State) :
    EmitsAtMost 2 s (takeDibit d conf s) := by
  suffices EmitsAtMost 2 (shiftWindow d s) (takeDibit d conf s) from this.of_trace rfl rfl
  rcases takeDibit_cases d conf s with ⟨-, h⟩ | ⟨-, -, h⟩ | ⟨-, -, h⟩ | ⟨-, -, h⟩ <;> rw [h]
  · exact (startCandidate_emitsAtMost _ _).mono one_le_two
  · exact emitsAtMost_of_trace (searchDibit_trace _)
  · exact nidDibit_emitsAtMost d _
  · exact payloadDibit_emitsAtMost d conf _

theorem loseLock_emitsAtMost (cause : LosCause) (s : State) : EmitsAtMost 2 s (loseLock cause s) := by
  have h := losMark_emitsAtMost cause { s with demod := { s.demod with locked := false, acqcnt := 0#10 } }
  exact h.of_trace rfl rfl

/-- The three tokens of the bound: SYM, then the two of DIBIT. -/
theorem outputSymbol_emitsAtMost (d : Dibit) (conf : BitVec 8) (s : State) :
    EmitsAtMost 3 s (outputSymbol d conf s) := by
  unfold outputSymbol
  split
  · exact (emit_emitsAtMost (.sym d conf) s).trans (takeDibit_emitsAtMost d conf _)
  · exact (takeDibit_emitsAtMost d conf s).mono (by decide)

theorem takeStrobe_emitsAtMost (sig : Bool) (s : State) : EmitsAtMost 3 s (takeStrobe sig s) := by
  rcases takeStrobe_cases sig s with ⟨-, h⟩ | ⟨-, -, h⟩ | ⟨-, -, -, h⟩ | ⟨-, -, -, h⟩ <;> rw [h]
  · exact emitsAtMost_of_trace (by rw [acquire_io]; rfl)
  · exact ((loseLock_emitsAtMost .energy (strobeLoops s)).mono (by decide)).of_trace rfl rfl
  · exact ((loseLock_emitsAtMost .timing (strobeLoops s)).mono (by decide)).of_trace rfl rfl
  · exact (outputSymbol_emitsAtMost _ _ (fineTrack _ (strobeLoops s))).of_trace rfl rfl

theorem takeSample_emitsAtMost (i q : Component) (s : State) : EmitsAtMost 3 s (takeSample i q s) := by
  have hfront : (frontEnd i q (countSample s)).io = s.io := by simp
  rcases takeSample_cases i q s with ⟨-, h⟩ | ⟨-, -, -, h⟩ | ⟨-, -, -, h⟩ <;> rw [h]
  · exact emitsAtMost_of_trace rfl
  · exact emitsAtMost_of_trace (congrArg Ports.trace hfront)
  · exact (takeStrobe_emitsAtMost _ _).of_trace (congrArg Ports.trace hfront) rfl

theorem flushBlock_emitsAtMost (s : State) : EmitsAtMost 1 s (flushBlock s) :=
  (closeFrame_emitsAtMost .flush s).of_trace rfl rfl

theorem writeCmd_emitsAtMost (v : Word32) (s : State) : EmitsAtMost 1 s (writeCmd v s) := by
  have hflush : EmitsAtMost 1 s (if v.getLsbD 0 then flushBlock s else s) := by
    split
    · exact flushBlock_emitsAtMost s
    · exact emitsAtMost_of_trace rfl
  unfold writeCmd
  split
  · exact emitsAtMost_of_trace rfl
  · dsimp only
    split
    · exact hflush.of_trace rfl rfl
    · exact hflush

theorem injectDibit_emitsAtMost (d : Dibit) (conf : BitVec 8) (s : State) :
    EmitsAtMost 2 s (injectDibit d conf s) := by
  unfold injectDibit
  split
  · exact takeDibit_emitsAtMost d conf s
  · exact emitsAtMost_of_trace rfl

theorem injectMarker_emitsAtMost (s : State) : EmitsAtMost 2 s (injectMarker s) := by
  unfold injectMarker
  split
  · exact losMark_emitsAtMost .injected s
  · exact emitsAtMost_of_trace rfl

theorem writeSymin_emitsAtMost (v : Word32) (s : State) : EmitsAtMost 2 s (writeSymin v s) := by
  unfold writeSymin
  split
  · exact injectMarker_emitsAtMost s
  · exact injectDibit_emitsAtMost _ _ s

/-- A register write reaches the trace through CMD and SYMIN only (rule R217). -/
theorem writeCsr_io {r : Csr} (hcmd : r ≠ .cmd) (hsymin : r ≠ .symin) (v : Word32) (s : State) :
    (writeCsr r v s).io = s.io := by
  cases r with
  | cmd => exact absurd rfl hcmd
  | symin => exact absurd rfl hsymin
  | sps => simp only [writeCsr]; split <;> rfl
  | nidcfg => simp only [writeCsr]; split <;> rfl
  | _ => rfl

theorem writeCsr_emitsAtMost (r : Csr) (v : Word32) (s : State) : EmitsAtMost 2 s (writeCsr r v s) := by
  by_cases hcmd : r = .cmd
  · subst hcmd
    exact (writeCmd_emitsAtMost v s).mono one_le_two
  by_cases hsymin : r = .symin
  · subst hsymin
    exact writeSymin_emitsAtMost v s
  exact emitsAtMost_of_trace (congrArg Ports.trace (writeCsr_io hcmd hsymin v s))

theorem writePort_emitsAtMost (a : RegNum) (v : Word32) (s : State) :
    EmitsAtMost 2 s (writePort a v s) := by
  unfold writePort
  split
  · exact writeCsr_emitsAtMost _ v s
  · exact emitsAtMost_of_trace rfl

theorem readPort_trace (a : RegNum) (s : State) : (readPort a s).io.trace = s.io.trace := by
  unfold readPort
  split <;> simp

/-- A CMD command that flushes emits the END of the frame it closes, and CLRCNT after it emits nothing. -/
theorem execFlush_emitsAtMost {thenClr : Bool} {s t : State} (h : exec (.flush thenClr) s = .next t) :
    EmitsAtMost 1 s t := by
  cases h
  split
  · exact (flushBlock_emitsAtMost s).of_trace rfl rfl
  · exact flushBlock_emitsAtMost s

/-- Every operation emits at most three tokens (rule R77). -/
theorem exec_emitsAtMost {i : Instr} {s t : State} (h : exec i s = .next t) : EmitsAtMost 3 s t := by
  cases i with
  | flush thenClr => exact (execFlush_emitsAtMost h).mono (by decide)
  | rst => cases h; exact emitsAtMost_of_trace rfl
  | srst => cases h; exact emitsAtMost_of_trace rfl
  | clrcnt => cases h; exact emitsAtMost_of_trace rfl
  | statusw1c clr => cases h; exact emitsAtMost_of_trace rfl
  | csrr a => cases h; exact emitsAtMost_of_trace (readPort_trace a s)
  | csrw a v => cases h; exact (writePort_emitsAtMost a v s).mono (by decide)
  | sample x y => cases h; exact takeSample_emitsAtMost x y s
  | strobe sig => cases h; exact takeStrobe_emitsAtMost sig s
  | unlock cause => cases h; exact (loseLock_emitsAtMost cause s).mono (by decide)
  | sym d conf => cases h; exact (injectDibit_emitsAtMost d conf s).mono (by decide)
  | losinj => cases h; exact (injectMarker_emitsAtMost s).mono (by decide)
  | dibit d conf => cases h; exact (takeDibit_emitsAtMost d conf s).mono (by decide)
  | losmark cause => cases h; exact (losMark_emitsAtMost cause s).mono (by decide)
  | niddec => cases h; exact (nidDecode_emitsAtMost s).mono (by decide)

/-- The KIND of a token is 1 to 6 (rules R100 and R107). -/
theorem tokenWord_kind_bounds (t : Token) : 1 ≤ (tokenWord t).kind.toNat ∧ (tokenWord t).kind.toNat ≤ 6 := by
  cases t <;> simp [tokenWord, tokenKind]

/-- Settles O8: what an operation appends are the words of at most three tokens, and tokens have six kinds. -/
theorem anOperationEmitsAtMostThreeTokensOfSixKinds :
    Obligations.AnOperationEmitsAtMostThreeTokensOfSixKinds := by
  intro i s t h
  obtain ⟨toks, htrace, hlen⟩ := exec_emitsAtMost h
  refine ⟨toks.map tokenWord, htrace, by rwa [List.length_map], fun w hw => ?_⟩
  obtain ⟨tok, -, rfl⟩ := List.mem_map.1 hw
  exact tokenWord_kind_bounds tok

end Sys2Proof.Machine

namespace Sys2Proof.Machine

/-! ### Token layouts (O55) -/

/-- Fields set side by side, as a number: the upper one weighs two to the width of the lower one. -/
theorem toNat_append_eq_add {v w : Nat} (x : BitVec v) (y : BitVec w) :
    (x ++ y).toNat = 2 ^ w * x.toNat + y.toNat := by
  rw [BitVec.toNat_append, ← Nat.shiftLeft_add_eq_or_of_lt y.isLt, Nat.shiftLeft_eq, Nat.mul_comm]

/-- A token whose fields need at most the 64 bits of DATA is laid out as the number of its fields. -/
theorem laidOut_of_fields {t : Token} {kind data w : Nat} {fields : BitVec w}
    (hkind : (tokenKind t).toNat = kind) (hdata : tokenData t = fields.setWidth 64) (hw : w ≤ 64)
    (hfields : fields.toNat = data) : LaidOut t kind data := by
  refine ⟨hkind, ?_⟩
  calc (tokenData t).toNat
      _ = (fields.setWidth 64).toNat := congrArg BitVec.toNat hdata
      _ = fields.toNat := BitVec.toNat_setWidth_of_le hw
      _ = data := hfields

/-- SYM (rule R101). -/
theorem laidOut_sym (d : Dibit) (conf : BitVec 8) :
    LaidOut (.sym d conf) 1 (d.toNat + 2 ^ 8 * conf.toNat) := by
  refine laidOut_of_fields rfl rfl (by decide) ?_
  simp only [toNat_append_eq_add, BitVec.toNat_ofNat]
  omega

/-- LOS, by the code of its cause (rule R102). -/
theorem laidOut_los (cause : LosCause) : LaidOut (.los cause) 2 (causeCode cause).toNat :=
  laidOut_of_fields rfl rfl (by decide) rfl

/-- HDR (rule R103). -/
theorem laidOut_hdr (tstamp : BitVec 32) (nac : BitVec 12) (duid : BitVec 4) (cls : BitVec 3) (p : Bool)
    (nerr : BitVec 4) (syncq : BitVec 6) :
    LaidOut (.hdr tstamp nac duid cls p nerr syncq) 3
      (2 ^ 32 * tstamp.toNat + 2 ^ 20 * nac.toNat + 2 ^ 16 * duid.toNat + 2 ^ 13 * cls.toNat +
        2 ^ 12 * p.toNat + 2 ^ 8 * nerr.toNat + syncq.toNat) := by
  refine laidOut_of_fields rfl rfl (by decide) ?_
  simp only [toNat_append_eq_add, BitVec.toNat_ofNat, BitVec.toNat_ofBool]
  omega

/-- PAY (rule R104). -/
theorem laidOut_pay (d : Dibit) (ss : Bool) (conf : BitVec 8) (pos : BitVec 12) :
    LaidOut (.pay d ss conf pos) 4 (d.toNat + 4 * ss.toNat + 2 ^ 8 * conf.toNat + 2 ^ 16 * pos.toNat) := by
  refine laidOut_of_fields rfl rfl (by decide) ?_
  simp only [toNat_append_eq_add, BitVec.toNat_ofNat, BitVec.toNat_ofBool]
  omega

/-- END, by the code of its reason (rule R105). -/
theorem laidOut_frameEnd (reason : EndReason) (pos : BitVec 12) :
    LaidOut (.frameEnd reason pos) 5 ((reasonCode reason).toNat + 2 ^ 16 * pos.toNat) := by
  refine laidOut_of_fields rfl rfl (by decide) ?_
  simp only [toNat_append_eq_add, BitVec.toNat_ofNat]
  omega

/-- END with REASON 0 is its POS field alone. -/
theorem laidOut_frameEnd_len (pos : BitVec 12) : LaidOut (.frameEnd .len pos) 5 (2 ^ 16 * pos.toNat) := by
  rw [← Nat.zero_add (2 ^ 16 * pos.toNat)]
  exact laidOut_frameEnd .len pos

/-- DECERR: the received NID is the whole of DATA (rule R106). -/
theorem laidOut_decerr (nid : BitVec 64) : LaidOut (.decerr nid) 6 nid.toNat := ⟨rfl, rfl⟩

/-- Settles O55: one layout per kind of token, with LOS and END read at each code of their tables. -/
theorem tokensAreLaidOutAsTheirTables : Obligations.TokensAreLaidOutAsTheirTables :=
  ⟨laidOut_sym, laidOut_los .energy, laidOut_los .timing, laidOut_los .injected, laidOut_hdr, laidOut_pay,
    fun pos => ⟨laidOut_frameEnd_len pos, laidOut_frameEnd .resync pos, laidOut_frameEnd .los pos,
      laidOut_frameEnd .flush pos⟩,
    laidOut_decerr, fun _ _ => rfl⟩

end Sys2Proof.Machine

namespace Sys2Proof.Machine

/-! ### What STROBE leaves of the front end (O9, O10) -/

/-- From `s` to `t` the configuration and what the front end writes of DEMOD, FOFF aside, stay as they are. -/
structure KeepsFrontEnd (s t : State) : Prop where
  tsamp : t.demod.tsamp = s.demod.tsamp
  energy : t.demod.energy = s.demod.energy
  php : t.demod.php = s.demod.php
  phv : t.demod.phv = s.demod.phv
  dl : t.demod.dl = s.demod.dl
  ctl : t.ctl = s.ctl

theorem KeepsFrontEnd.trans {s t u : State} (h : KeepsFrontEnd s t) (h' : KeepsFrontEnd t u) :
    KeepsFrontEnd s u :=
  ⟨h'.tsamp.trans h.tsamp, h'.energy.trans h.energy, h'.php.trans h.php, h'.phv.trans h.phv,
    h'.dl.trans h.dl, h'.ctl.trans h.ctl⟩

/-- What leaves DEMOD and the configuration alone keeps the front end's elements. -/
theorem FsyncFrame.keepsFrontEnd {s t : State} (h : FsyncFrame s t) : KeepsFrontEnd s t := by
  constructor
  case ctl => exact h.ctl
  all_goals rw [h.demod]

theorem strobeLoops_keepsFrontEnd (s : State) : KeepsFrontEnd s (strobeLoops s) :=
  ⟨rfl, rfl, rfl, rfl, rfl, rfl⟩

theorem fineTrack_keepsFrontEnd (err : Int) (s : State) : KeepsFrontEnd s (fineTrack err s) :=
  ⟨rfl, rfl, rfl, rfl, rfl, rfl⟩

theorem acquire_keepsFrontEnd (sig : Bool) (s : State) : KeepsFrontEnd s (acquire sig s) := by
  constructor <;> simp

theorem loseLock_keepsFrontEnd (cause : LosCause) (s : State) : KeepsFrontEnd s (loseLock cause s) := by
  have hmark := losMark_frame cause { s with demod := { s.demod with locked := false, acqcnt := 0#10 } }
  obtain ⟨tsamp, energy, php, phv, dl, ctl⟩ := hmark.keepsFrontEnd
  exact ⟨tsamp, energy, php, phv, dl, ctl⟩

/-- The state in which the DIBIT of an output symbol runs: SYM is emitted where it is tapped (rule R141). -/
def tapSymbol (d : Dibit) (conf : BitVec 8) (s : State) : State :=
  if s.ctl.symtap then emit (.sym d conf) s else s

theorem outputSymbol_eq (d : Dibit) (conf : BitVec 8) (s : State) :
    outputSymbol d conf s = takeDibit d conf (tapSymbol d conf s) := rfl

theorem tapSymbol_frame (d : Dibit) (conf : BitVec 8) (s : State) : FsyncFrame s (tapSymbol d conf s) := by
  unfold tapSymbol
  split <;> exact ⟨rfl, rfl, rfl, rfl⟩

theorem outputSymbol_keepsFrontEnd (d : Dibit) (conf : BitVec 8) (s : State) :
    KeepsFrontEnd s (outputSymbol d conf s) :=
  ((tapSymbol_frame d conf s).trans (takeDibit_frame d conf _)).keepsFrontEnd

/-- STROBE writes the elements of its own loops only (rules R130 to R141). -/
theorem takeStrobe_keepsFrontEnd (sig : Bool) (s : State) : KeepsFrontEnd s (takeStrobe sig s) := by
  have hloops := strobeLoops_keepsFrontEnd s
  rcases takeStrobe_cases sig s with ⟨-, h⟩ | ⟨-, -, h⟩ | ⟨-, -, -, h⟩ | ⟨-, -, -, h⟩ <;> rw [h]
  · exact hloops.trans (acquire_keepsFrontEnd _ _)
  · exact hloops.trans (loseLock_keepsFrontEnd _ _)
  · exact hloops.trans (loseLock_keepsFrontEnd _ _)
  · exact (hloops.trans (fineTrack_keepsFrontEnd _ _)).trans (outputSymbol_keepsFrontEnd _ _ _)

/-- Only a locked strobe tracks the fine offset (rule R134). -/
theorem takeStrobe_foff_of_unlocked {sig : Bool} {s : State} (h : s.demod.locked = false) :
    (takeStrobe sig s).demod.foff = s.demod.foff := by
  rcases takeStrobe_cases sig s with ⟨-, he⟩ | ⟨hl, -⟩ | ⟨hl, -⟩ | ⟨hl, -⟩
  · rw [he, acquire_demod_foff]
    rfl
  all_goals simp [h] at hl

/-- After its front end a demodulated sample writes neither the configuration nor what the front end wrote. -/
theorem takeSample_keepsFrontEnd {i q : Component} {s : State} (hen : s.ctl.en = true)
    (hby : s.ctl.bypass = false) : KeepsFrontEnd (frontEnd i q (countSample s)) (takeSample i q s) := by
  rcases takeSample_cases i q s with ⟨hgate, -⟩ | ⟨-, -, -, h⟩ | ⟨-, -, -, h⟩
  · simp [hen, hby] at hgate
  · rw [h]
    exact ⟨rfl, rfl, rfl, rfl, rfl, rfl⟩
  · rw [h]
    exact takeStrobe_keepsFrontEnd _ _

/-- The offset the front end used is the one that results, but where a locked strobe follows. -/
theorem takeSample_foff {i q : Component} {s : State} (hen : s.ctl.en = true) (hby : s.ctl.bypass = false)
    (hs : s.demod.locked = false ∨ 1 < s.demod.tcnt.toNat) :
    (takeSample i q s).demod.foff = (frontEnd i q (countSample s)).demod.foff := by
  rcases takeSample_cases i q s with ⟨hgate, -⟩ | ⟨-, -, -, h⟩ | ⟨-, -, htcnt, h⟩
  · simp [hen, hby] at hgate
  · rw [h]
  · have hl : s.demod.locked = false := hs.resolve_right (by omega)
    rw [h]
    exact takeStrobe_foff_of_unlocked (by simpa using hl)

/-- Every sample is counted, demodulated or not (rule R121). -/
theorem takeSample_tsamp (i q : Component) (s : State) :
    (takeSample i q s).demod.tsamp = s.demod.tsamp + 1 := by
  rcases takeSample_cases i q s with ⟨-, h⟩ | ⟨hen, hby, -⟩ | ⟨hen, hby, -⟩
  · rw [h, countSample_demod_tsamp]
  all_goals
    rw [(takeSample_keepsFrontEnd hen hby).tsamp]
    simp

/-- A sample that is not demodulated is counted and nothing else (rule R121). -/
theorem takeSample_of_gated {i q : Component} {s : State} (h : s.ctl.en = false ∨ s.ctl.bypass = true) :
    takeSample i q s = countSample s := by
  rcases takeSample_cases i q s with ⟨-, he⟩ | ⟨hen, hby, -⟩ | ⟨hen, hby, -⟩
  · exact he
  all_goals simp [hen, hby] at h

/-- Settles O9: TSAMP is counted before the gate, and neither front end nor strobe writes it. -/
theorem sampleAlwaysCountsAndIsGated : Obligations.SampleAlwaysCountsAndIsGated := by
  intro i q s
  refine ⟨takeSample i q s, rfl, ?_, takeSample_of_gated⟩
  rw [takeSample_tsamp]
  exact BitVec.toNat_add s.demod.tsamp 1#32

/-! ### A demodulated sample (O10) -/

/-- Bit 1 of STATUS as read is SIGPRES (rule R47). -/
theorem statusRead_getLsbD_one (s : State) : (statusRead s).getLsbD 1 = sigPresent s := by
  rw [statusRead, BitVec.getLsbD_setWidth, BitVec.getLsbD_append, BitVec.getLsbD_append]
  simp

/-- Register number 3 reads STATUS. -/
theorem exec_csrr_status (s : State) : exec (.csrr 0x03#8) s = .next (returnWord (statusRead s) s) :=
  congrArg Host.Outcome.next (readPort_of_csrOf_some (r := .status) rfl s)

/-- Settles O10: `frontEnd_by` gives the values, and what follows the front end keeps them. The offset used is the
one the front end leaves. -/
theorem demodulatedSampleFrontEnd : Obligations.DemodulatedSampleFrontEnd := by
  intro i q s hen hby
  have hfront := frontEnd_by i q s
  have hkeep : KeepsFrontEnd (frontEnd i q (countSample s)) (takeSample i q s) :=
    takeSample_keepsFrontEnd hen hby
  have hctl : (takeSample i q s).ctl = s.ctl := by rw [hkeep.ctl]; simp
  refine ⟨takeSample i q s, rfl, (power_bounds i q).1, (power_bounds i q).2, ?energy, ?php, ?phv,
    ⟨_, _, exec_csrr_status _, rfl, ?sigpres⟩,
    (frontEnd i q (countSample s)).demod.foff.toInt, ?coarse, ?keeps, ?delay, ?foff⟩
  case energy => rw [hkeep.energy]; exact hfront.energy
  case php => rw [hkeep.php]; exact hfront.php
  case phv => rw [hkeep.phv]; exact hfront.phv
  case sigpres => rw [statusRead_getLsbD_one, sigPresent, hctl, decide_eq_true_iff]
  case coarse =>
    rw [hkeep.energy]
    exact fun ⟨hsig, hl⟩ => hfront.coarse hsig hl
  case keeps =>
    rw [hkeep.energy]
    exact fun h => congrArg BitVec.toInt (hfront.keeps h)
  case delay => rw [hkeep.dl]; exact hfront.delay
  case foff => exact fun h => congrArg BitVec.toInt (takeSample_foff hen hby h)

/-! ### A symbol output by STROBE (O18) -/

/-- The symbol of a soft value, by the ranges of rule R132: its dibit, and its slicer error (rule R133). -/
theorem slicedSymbol_of_ranges (sv : Int) :
    (16384 ≤ sv → levelDibit (slice sv) = 1#2 ∧ slicerError sv = sv - 24576) ∧
    (0 ≤ sv → sv < 16384 → levelDibit (slice sv) = 0#2 ∧ slicerError sv = sv - 8192) ∧
    (-16384 ≤ sv → sv < 0 → levelDibit (slice sv) = 2#2 ∧ slicerError sv = sv + 8192) ∧
    (sv < -16384 → levelDibit (slice sv) = 3#2 ∧ slicerError sv = sv + 24576) := by
  have error_of_level {a : Level} (h : slice sv = a) : slicerError sv = sv - levelValue a * 8192 := by
    rw [slicerError, h, Config.lvl]
  refine ⟨fun h => ?plus3, fun hlo hhi => ?plus1, fun hlo hhi => ?minus1, fun h => ?minus3⟩
  case plus3 =>
    have ha : slice sv = .plus3 := if_pos h
    exact ⟨congrArg levelDibit ha, error_of_level ha⟩
  case plus1 =>
    have ha : slice sv = .plus1 := by rw [slice, if_neg (by omega), if_pos hlo]
    exact ⟨congrArg levelDibit ha, error_of_level ha⟩
  case minus1 =>
    have ha : slice sv = .minus1 := by rw [slice, if_neg (by omega), if_neg (by omega), if_pos hlo]
    exact ⟨congrArg levelDibit ha, by rw [error_of_level ha, levelValue]; omega⟩
  case minus3 =>
    have ha : slice sv = .minus3 := by rw [slice, if_neg (by omega), if_neg (by omega), if_neg (by omega)]
    exact ⟨congrArg levelDibit ha, by rw [error_of_level ha, levelValue]; omega⟩

/-- The slicer error of the strobe a state would take is in the range of rule R133. -/
theorem errorAfter_bounds (s : State) : -8192 ≤ errorAfter s ∧ errorAfter s ≤ 8191 := by
  rw [← slicerError_softValue]
  exact slicerError_bounds (narrowSum_bounds _ _)

/-- EYEAVG after a strobe is the exact integer of rule R137. -/
theorem strobeLoops_eyeavg (s : State) : ((strobeLoops s).demod.eyeavg.toNat : Int) = eyeAfter s := by
  have herr : |errorAfter s| ≤ 8192 := by
    have := errorAfter_bounds s
    rw [abs_le]
    omega
  have hold := s.demod.eyeavg.isLt
  have havg := average_between (lo := 0) (hi := 16383) (old := s.demod.eyeavg.toNat) (new := |errorAfter s|)
    s.ctl.eshift.toNat (by omega) ⟨abs_nonneg _, by omega⟩
  rw [strobeLoops, updateEye_demod_eyeavg, slicerError_softValue]
  exact toNat_ofInt_exact havg.1 (havg.2.trans_lt (by norm_num))

/-- The confidence is the exact integer of rule R133: it lies in 0 to 255 for every error. -/
theorem confidence_toNat (err : Int) : ((confidence err).toNat : Int) = 255 - min 255 (floorShr |err| 5) := by
  have := floorShr_nonneg (abs_nonneg err) 5
  exact toNat_ofInt_exact (by omega) (by omega)

/-- FOFF after the fine update is the exact integer of rule R134. -/
theorem fineOffset_toInt (foff : BitVec 24) (err : Int) (trk : BitVec 4) (folim : BitVec 15) :
    (fineOffset foff err trk folim).toInt =
      clamp (foff.toInt + floorShr (err * 256) trk.toNat) (-offsetLimit folim) (offsetLimit folim) :=
  toInt_clampOffset _ folim

/-- A good symbol of a locked strobe is output after the fine update (rules R138 and R141). -/
theorem takeStrobe_of_good_symbol {s : State} (hl : s.demod.locked = true)
    (heye : eyeAfter s ≤ s.ctl.uthr.toNat) :
    takeStrobe true s = outputSymbol (levelDibit (slice (softValue s)))
      (confidence (slicerError (softValue s))) (fineTrack (slicerError (softValue s)) (strobeLoops s)) := by
  have heyeavg := strobeLoops_eyeavg s
  rcases takeStrobe_cases true s with ⟨hu, -⟩ | ⟨-, hsig, -⟩ | ⟨-, -, hgt, -⟩ | ⟨-, -, -, h⟩
  · simp [hl] at hu
  · simp at hsig
  · omega
  · exact h

theorem tapSymbol_keeps (d : Dibit) (conf : BitVec 8) (s : State) :
    (tapSymbol d conf s).fsync = s.fsync ∧ (tapSymbol d conf s).nid = s.nid ∧
      (tapSymbol d conf s).evt = s.evt := by
  unfold tapSymbol
  split <;> exact ⟨rfl, rfl, rfl⟩

theorem tapSymbol_emits (d : Dibit) (conf : BitVec 8) (s : State) :
    Emits s (tapSymbol d conf s) (if s.ctl.symtap then [.sym d conf] else []) := by
  unfold tapSymbol
  split
  · exact emits_emit _ _
  · exact emits_refl _

/-- Settles O18: the strobe ends in `outputSymbol`, whose DIBIT runs in the state after the fine update and the
tapped SYM. -/
theorem strobeOutputsTheSymbol : Obligations.StrobeOutputsTheSymbol := by
  intro s hl heye
  set err := slicerError (softValue s)
  set d := levelDibit (slice (softValue s))
  set tracked := fineTrack err (strobeLoops s)
  have hstrobe : takeStrobe true s = takeDibit d (confidence err) (tapSymbol d (confidence err) tracked) :=
    takeStrobe_of_good_symbol hl heye
  obtain ⟨hplus3, hplus1, hminus1, hminus3⟩ := slicedSymbol_of_ranges (softValue s)
  obtain ⟨herrLo, herrHi⟩ := errorAfter_bounds s
  rw [← slicerError_softValue] at herrLo herrHi
  obtain ⟨hdemod, hctl, hscript, hrdata⟩ := tapSymbol_frame d (confidence err) tracked
  obtain ⟨hfsync, hnid, hevt⟩ := tapSymbol_keeps d (confidence err) tracked
  have hfoff : (tapSymbol d (confidence err) tracked).demod.foff =
      fineOffset s.demod.foff err s.ctl.trk s.ctl.folim := by rw [hdemod]; rfl
  refine ⟨tapSymbol d (confidence err) tracked, takeStrobe true s, d, confidence err, err,
    hplus3, hplus1, hminus1, hminus3, herrLo, herrHi, rfl, congrArg Host.Outcome.next hstrobe.symm,
    confidence_toNat err, ?foff, ?locked, ?acqcnt, ?tsamp, hfsync, hnid, hevt, hctl, hscript, hrdata,
    tapSymbol_emits d (confidence err) tracked⟩
  case foff => rw [hfoff]; exact fineOffset_toInt _ _ _ _
  case locked => rw [hdemod]; exact hl
  case acqcnt => rw [hdemod]; rfl
  case tsamp => rw [hdemod]; rfl

end Sys2Proof.Machine

namespace Sys2Proof.Machine

/-! ### The sync window and the match test (O21) -/

/-- The window register after a shift is `{SR[45:0], d}` (rule R161). -/
theorem shiftWindow_sr_eq_windowAfter (d : Dibit) (s : State) :
    (shiftWindow d s).fsync.sr = windowAfter d s := by
  rw [shiftWindow_fsync_sr, windowAfter]
  apply BitVec.eq_of_toNat_eq
  rw [BitVec.toNat_setWidth, toNat_append_eq_add, toNat_append_eq_add, BitVec.extractLsb'_toNat]
  have hd := d.isLt
  omega

/-- The shift as one record update, in the terms of the statements. -/
theorem shiftWindow_eq (d : Dibit) (s : State) :
    shiftWindow d s = { s with fsync := { s.fsync with
      sr := windowAfter d s, srv := BitVec.ofNat 5 (min 24 (s.fsync.srv.toNat + 1)) } } := by
  rw [← shiftWindow_sr_eq_windowAfter]
  rfl

theorem toNat_windowAfter (d : Dibit) (s : State) :
    (windowAfter d s).toNat = (s.fsync.sr.toNat * 4 + d.toNat) % 2 ^ 48 := by
  rw [windowAfter, toNat_append_eq_add, BitVec.extractLsb'_toNat]
  have hd := d.isLt
  omega

/-- The count of valid dibits saturates at 24 (rule R161). -/
theorem toNat_shiftWindow_srv (d : Dibit) (s : State) :
    (shiftWindow d s).fsync.srv.toNat = min 24 (s.fsync.srv.toNat + 1) := by
  rw [shiftWindow_fsync_srv, BitVec.toNat_ofNat]
  omega

theorem shiftWindow_srv_eq_full_iff (d : Dibit) (s : State) :
    (shiftWindow d s).fsync.srv = 24#5 ↔ 24 ≤ s.fsync.srv.toNat + 1 := by
  rw [← BitVec.toNat_inj, toNat_shiftWindow_srv, BitVec.toNat_ofNat]
  omega

theorem syncDistance_shiftWindow (d : Dibit) (s : State) :
    syncDistance (shiftWindow d s) = distanceAfter d s := by
  rw [syncDistance, shiftWindow_sr_eq_windowAfter, shiftWindow_ctl, distanceAfter]

/-- The match test on the shifted window is the one of rule R162. -/
theorem syncMatch_shiftWindow_iff (d : Dibit) (s : State) :
    syncMatch (shiftWindow d s) = true ↔ CompletesSync d s := by
  simp only [syncMatch, CompletesSync, shiftWindow_srv_eq_full_iff, syncDistance_shiftWindow,
    shiftWindow_ctl, shiftWindow_fsync_fstate, Bool.and_eq_true, beq_iff_eq, decide_eq_true_iff,
    Bool.not_eq_true', Bool.and_eq_false_imp, not_and, Bool.not_eq_true, and_assoc]

/-- A dibit that completes a match starts a candidate (rules R160 and R164). -/
theorem takeDibit_of_match {d : Dibit} {s : State} (h : CompletesSync d s) (conf : BitVec 8) :
    takeDibit d conf s = startCandidate (distanceAfter d s) (shiftWindow d s) := by
  rw [← syncDistance_shiftWindow]
  exact if_pos ((syncMatch_shiftWindow_iff d s).2 h)

/-- Any other dibit is left to the state FSYNC is in (rule R160). -/
theorem takeDibit_of_no_match {d : Dibit} {s : State} (h : ¬ CompletesSync d s) (conf : BitVec 8) :
    takeDibit d conf s = unmatchedDibit d conf (shiftWindow d s) :=
  if_neg (mt (syncMatch_shiftWindow_iff d s).1 h)

/-- What a dibit does after the shift leaves the window alone. -/
structure KeepsWindow (s t : State) : Prop where
  sr : t.fsync.sr = s.fsync.sr
  srv : t.fsync.srv = s.fsync.srv

theorem startCandidate_keepsWindow (dist : Nat) (s : State) : KeepsWindow s (startCandidate dist s) := by
  constructor <;> simp [startCandidate]

theorem searchDibit_keepsWindow (s : State) : KeepsWindow s (searchDibit s) := by
  rcases searchDibit_cases s with ⟨-, h⟩ | ⟨-, -, h⟩ | ⟨-, -, h⟩ <;> rw [h] <;> exact ⟨rfl, rfl⟩

theorem nidDibit_keepsWindow (d : Dibit) (s : State) : KeepsWindow s (nidDibit d s) := by
  rcases nidDibit_cases d s with ⟨-, h⟩ | ⟨-, -, h⟩ | ⟨-, -, h⟩ <;> rw [h]
  · exact ⟨rfl, rfl⟩
  · have hnid := nidDecode_nidFrame (collectDibit d (advancePos s))
    exact ⟨hnid.sr, hnid.srv⟩
  · exact ⟨rfl, rfl⟩

theorem payloadDibit_keepsWindow (d : Dibit) (conf : BitVec 8) (s : State) :
    KeepsWindow s (payloadDibit d conf s) := by
  rcases payloadDibit_cases d conf s with ⟨-, h⟩ | ⟨-, h⟩ <;> rw [h] <;> exact ⟨rfl, rfl⟩

/-- In every state the window after a DIBIT is the shifted one (rule R161). -/
theorem takeDibit_keepsWindow (d : Dibit) (conf : BitVec 8) (s : State) :
    KeepsWindow (shiftWindow d s) (takeDibit d conf s) := by
  rcases takeDibit_cases d conf s with ⟨-, h⟩ | ⟨-, -, h⟩ | ⟨-, -, h⟩ | ⟨-, -, h⟩ <;> rw [h]
  · exact startCandidate_keepsWindow _ _
  · exact searchDibit_keepsWindow _
  · exact nidDibit_keepsWindow d _
  · exact payloadDibit_keepsWindow d conf _

theorem takeDibit_sr (d : Dibit) (conf : BitVec 8) (s : State) :
    (takeDibit d conf s).fsync.sr = windowAfter d s := by
  rw [(takeDibit_keepsWindow d conf s).sr, shiftWindow_sr_eq_windowAfter]

theorem toNat_takeDibit_srv (d : Dibit) (conf : BitVec 8) (s : State) :
    (takeDibit d conf s).fsync.srv.toNat = min 24 (s.fsync.srv.toNat + 1) := by
  rw [(takeDibit_keepsWindow d conf s).srv, toNat_shiftWindow_srv]

/-- Settles O21: nothing a dibit does after the shift writes the window. -/
theorem dibitShiftsTheWindow : Obligations.DibitShiftsTheWindow := by
  intro d conf s
  refine ⟨takeDibit d conf s, rfl, ?_, toNat_takeDibit_srv d conf s⟩
  rw [takeDibit_sr, toNat_windowAfter]

/-! ### Losing the signal (O20) -/

/-- The END of a frame that is cut, in the form of the statements. -/
theorem closeTokens_eq_ite (reason : EndReason) (f : Fsync) :
    closeTokens reason f = if f.fstate = .payload then [.frameEnd reason f.pos] else [] := by
  unfold closeTokens
  cases f.fstate <;> rfl

/-- LOSMARK restarts the search with an empty window and keeps the rest of FSYNC (rule R171). -/
theorem losMark_fsync (cause : LosCause) (s : State) :
    (losMark cause s).fsync =
      { s.fsync with fstate := .search, sr := 0#48, srv := 0#5, srchcnt := 0#16 } := by
  simp [losMark, clearWindow]

theorem losMark_nid (cause : LosCause) (s : State) :
    (losMark cause s).nid = { s.nid with loscnt := s.nid.loscnt + 1 } := by
  simp [losMark, countCondition]

theorem losMark_evt (cause : LosCause) (s : State) : (losMark cause s).evt = s.evt ||| 0b00001#5 := by
  simp [losMark, conditionEvent, eventMask]

/-- Settles O20: LOSMARK written out unit by unit. -/
theorem losmarkResetsTheSearch : Obligations.LosmarkResetsTheSearch := by
  intro cause s
  obtain ⟨hdemod, hctl, hscript, hrdata⟩ := losMark_frame cause s
  refine ⟨losMark cause s, rfl, hdemod, hctl, losMark_fsync cause s, losMark_nid cause s,
    losMark_evt cause s, hscript, hrdata, ?_⟩
  rw [← closeTokens_eq_ite]
  exact losMark_emits cause s

/-! ### A dibit that completes a match (O22) -/

/-- The quality of a match loses nothing in its six bits (rule R37). -/
theorem toNat_startCandidate_syncq (dist : Nat) (s : State) :
    (startCandidate dist s).fsync.syncq.toNat = 48 - dist := by
  rw [startCandidate, beginNid_fsync_syncq, BitVec.toNat_ofNat]
  omega

theorem startCandidate_fsync (dist : Nat) (s : State) :
    (startCandidate dist s).fsync = { s.fsync with
      fstate := .nid, pos := 24#12, nidacc := 0#64, nidn := 0#6, srchcnt := 0#16
      tstamp := s.demod.tsamp, syncq := (startCandidate dist s).fsync.syncq } := by
  simp [startCandidate, beginNid]

theorem startCandidate_nid (dist : Nat) (s : State) :
    (startCandidate dist s).nid = { s.nid with synccnt := s.nid.synccnt + 1 } := by
  simp [startCandidate, countSync]

theorem startCandidate_evt (dist : Nat) (s : State) : (startCandidate dist s).evt = s.evt := by
  simp [startCandidate]

/-- The only token of a new candidate is the END of the frame it cuts (rule R164). -/
theorem startCandidate_emits (dist : Nat) (s : State) :
    Emits s (startCandidate dist s) (closeTokens .resync s.fsync) :=
  emits_closeFrame .resync s

/-- Settles O22: the candidate starts from the shifted window, which is full. -/
theorem dibitThatCompletesASyncStartsACandidate :
    Obligations.DibitThatCompletesASyncStartsACandidate := by
  intro d conf s h
  have hfull : BitVec.ofNat 5 (min 24 (s.fsync.srv.toNat + 1)) = 24#5 := by rw [min_eq_left h.1]
  obtain ⟨hdemod, hctl, hscript, hrdata⟩ := takeDibit_frame d conf s
  have ht := takeDibit_of_match h conf
  refine ⟨takeDibit d conf s, rfl, ?syncq, ?fsync, ?nid, hdemod, ?evt, hctl, hscript, hrdata, ?emits⟩
  case syncq => rw [ht, toNat_startCandidate_syncq]
  case fsync => rw [ht, startCandidate_fsync, shiftWindow_eq, hfull]
  case nid => rw [ht, startCandidate_nid, shiftWindow_nid]
  case evt => rw [ht, startCandidate_evt, shiftWindow_evt]
  case emits =>
    rw [ht, ← closeTokens_eq_ite]
    exact startCandidate_emits _ (shiftWindow d s)

/-! ### A dibit without a match in SEARCH (O23) -/

theorem takeDibit_of_search {d : Dibit} {s : State} (hs : s.fsync.fstate = .search)
    (h : ¬ CompletesSync d s) (conf : BitVec 8) :
    takeDibit d conf s = searchDibit (shiftWindow d s) := by
  rw [takeDibit_of_no_match h, unmatchedDibit, shiftWindow_fsync_fstate, hs]

/-- Settles O23: each answer of `searchDibit` on the shifted window meets its clause and excludes the others. -/
theorem dibitWithoutAMatchInSearchCounts : Obligations.DibitWithoutAMatchInSearchCounts := by
  intro d conf s hs h
  have ht := takeDibit_of_search hs h conf
  refine ⟨takeDibit d conf s, rfl, ?_⟩
  intro f c
  have hwin := s.ctl.srchwin.isLt
  rw [ht, shiftWindow_eq]
  rcases searchDibit_cases { s with fsync := f } with ⟨h0, he⟩ | ⟨h0, hle, he⟩ | ⟨h0, hlt, he⟩ <;>
    rw [he]
  · exact ⟨fun _ => rfl, fun hn => absurd h0 hn, fun hn => absurd h0 hn⟩
  · exact ⟨fun hz => absurd hz h0, fun _ hlt => absurd hlt (Nat.not_lt.2 hle), fun _ _ => rfl⟩
  · refine ⟨fun hz => absurd hz h0, fun _ _ => ⟨?_, rfl⟩, fun _ hle => absurd hlt (Nat.not_lt.2 hle)⟩
    exact BitVec.toNat_add_of_lt (y := 1#16) (hlt.trans hwin)

/-! ### A dibit without a match in PAYLOAD (O26) -/

theorem takeDibit_of_payload {d : Dibit} {s : State} (hs : s.fsync.fstate = .payload)
    (h : ¬ CompletesSync d s) (conf : BitVec 8) :
    takeDibit d conf s = payloadDibit d conf (shiftWindow d s) := by
  rw [takeDibit_of_no_match h, unmatchedDibit, shiftWindow_fsync_fstate, hs]

/-- Payload forwarding writes FSYNC and the trace only. -/
theorem payloadDibit_keeps (d : Dibit) (conf : BitVec 8) (s : State) :
    (payloadDibit d conf s).nid = s.nid ∧ (payloadDibit d conf s).evt = s.evt := by
  rcases payloadDibit_cases d conf s with ⟨-, h⟩ | ⟨-, h⟩ <;> rw [h] <;> exact ⟨rfl, rfl⟩

theorem payloadDibit_pos (d : Dibit) (conf : BitVec 8) (s : State) :
    (payloadDibit d conf s).fsync.pos = s.fsync.pos + 1 := by
  rcases payloadDibit_cases d conf s with ⟨-, h⟩ | ⟨-, h⟩ <;> rw [h] <;> rfl

/-- A payload dibit before the end of the frame is forwarded (rule R169). -/
theorem payloadDibit_of_inside {s : State} (h : (s.fsync.pos + 1).toNat < s.fsync.flen.toNat) (d : Dibit)
    (conf : BitVec 8) :
    (payloadDibit d conf s).fsync = { s.fsync with pos := s.fsync.pos + 1 } ∧
      Emits s (payloadDibit d conf s) [payToken d conf s.fsync] := by
  rcases payloadDibit_cases d conf s with ⟨hle, -⟩ | ⟨-, he⟩
  · exact absurd h (Nat.not_lt.2 hle)
  · rw [he]
    exact ⟨rfl, emits_emit _ s⟩

/-- The last payload dibit is forwarded, and END follows with the new POS (rule R169). -/
theorem payloadDibit_of_last {s : State} (h : s.fsync.flen.toNat ≤ (s.fsync.pos + 1).toNat) (d : Dibit)
    (conf : BitVec 8) :
    (payloadDibit d conf s).fsync =
        { s.fsync with pos := s.fsync.pos + 1, fstate := .search, srchcnt := 0#16 } ∧
      Emits s (payloadDibit d conf s) [payToken d conf s.fsync, .frameEnd .len (s.fsync.pos + 1)] := by
  rcases payloadDibit_cases d conf s with ⟨-, he⟩ | ⟨hlt, -⟩
  · rw [he]
    exact ⟨rfl, (emits_emit _ s).trans (emits_emit (.frameEnd .len (s.fsync.pos + 1)) _)⟩
  · exact absurd hlt (Nat.not_lt.2 h)

/-- Settles O26: below 4095 the new POS does not wrap, so FLEN is compared with POS + 1 itself. -/
theorem dibitForwardsThePayload : Obligations.DibitForwardsThePayload := by
  intro d conf s hs hpos h
  have ht := takeDibit_of_payload hs h conf
  have hnext : (s.fsync.pos + 1).toNat = s.fsync.pos.toNat + 1 :=
    BitVec.toNat_add_of_lt (y := 1#12) (Nat.succ_lt_succ hpos)
  obtain ⟨hdemod, hctl, hscript, hrdata⟩ := takeDibit_frame d conf s
  obtain ⟨hnid, hevt⟩ := payloadDibit_keeps d conf (shiftWindow d s)
  have hp : (takeDibit d conf s).fsync.pos = s.fsync.pos + 1 := by
    rw [ht, payloadDibit_pos, shiftWindow_fsync_pos]
  refine ⟨takeDibit d conf s, rfl, ?_⟩
  intro pay f
  have hwindow : f = { (shiftWindow d s).fsync with pos := s.fsync.pos + 1 } := by
    rw [← hp, shiftWindow_eq]
  refine ⟨by rw [hp, hnext], hdemod, ht ▸ hnid, ht ▸ hevt, hctl, hscript, hrdata, fun hlt => ?inside,
    fun hle => ?last⟩
  case inside =>
    obtain ⟨hf, he⟩ := payloadDibit_of_inside (s := shiftWindow d s) (hnext.trans_lt hlt) d conf
    refine ⟨?_, ht ▸ he⟩
    rw [hwindow, ht, hf, shiftWindow_fsync_pos]
  case last =>
    obtain ⟨hf, he⟩ := payloadDibit_of_last (s := shiftWindow d s) (hle.trans_eq hnext.symm) d conf
    rw [hwindow, hp]
    refine ⟨?_, ht ▸ he⟩
    rw [ht, hf, shiftWindow_fsync_pos]

/-! ### Twenty-four dibits (O27) -/

theorem openFrame_nid (s : State) : (openFrame s).nid = s.nid := by
  rcases openFrame_cases s with ⟨-, h⟩ | ⟨-, h⟩ <;> exact congrArg (·.nid) h

/-- NIDDEC counts frames and rejections, never syncs. -/
theorem nidDecode_synccnt (s : State) : (nidDecode s).nid.synccnt = s.nid.synccnt := by
  rcases nidDecode_cases s with ⟨c, -, h⟩ | ⟨-, h⟩ <;> rw [h]
  · rw [acceptNid, openFrame_nid]
    rfl
  · rfl

/-- Only a match counts a sync. -/
theorem takeDibit_synccnt_of_no_match {d : Dibit} {s : State} (h : ¬ CompletesSync d s) (conf : BitVec 8) :
    (takeDibit d conf s).nid.synccnt = s.nid.synccnt := by
  rw [takeDibit_of_no_match h, unmatchedDibit]
  cases hf : (shiftWindow d s).fsync.fstate with
  | search =>
    rcases searchDibit_cases (shiftWindow d s) with ⟨-, h⟩ | ⟨-, -, h⟩ | ⟨-, -, h⟩ <;>
      exact congrArg (·.nid.synccnt) h
  | nid =>
    rcases nidDibit_cases d (shiftWindow d s) with ⟨-, h⟩ | ⟨-, -, h⟩ | ⟨-, -, h⟩
    · exact congrArg (·.nid.synccnt) h
    · exact (congrArg (·.nid.synccnt) h).trans (nidDecode_synccnt _)
    · exact congrArg (·.nid.synccnt) h
  | payload => exact congrArg Nid.synccnt (payloadDibit_keeps d conf (shiftWindow d s)).1

theorem packDibits_concat (ds : List Dibit) (d : Dibit) :
    packDibits (ds ++ [d]) = packDibits ds * 4 + d.toNat := by
  simp [packDibits]

theorem packDibits_append (ds es : List Dibit) :
    packDibits (ds ++ es) = packDibits ds * 4 ^ es.length + packDibits es := by
  induction es using List.reverseRecOn with
  | nil => simp [packDibits]
  | append_singleton es e ih =>
    rw [← List.append_assoc, packDibits_concat, packDibits_concat, ih, List.length_append,
      List.length_singleton]
    ring

/-- From `s` to `t` exactly the dibits `ds` were shifted into the window, and the configuration stayed. -/
structure ShiftedIn (ds : List Dibit) (s t : State) : Prop where
  ctl : t.ctl = s.ctl
  sr : t.fsync.sr.toNat ≡ s.fsync.sr.toNat * 4 ^ ds.length + packDibits ds [MOD 2 ^ 48]
  srv : min 24 (s.fsync.srv.toNat + ds.length) ≤ t.fsync.srv.toNat

theorem ShiftedIn.nil (s : State) : ShiftedIn [] s s :=
  ⟨rfl, by simp [packDibits, Nat.ModEq.refl], by simp⟩

theorem ShiftedIn.trans {ds es : List Dibit} {s t u : State} (h : ShiftedIn ds s t) (h' : ShiftedIn es t u) :
    ShiftedIn (ds ++ es) s u := by
  refine ⟨h'.ctl.trans h.ctl, ?sr, ?srv⟩
  case sr =>
    calc u.fsync.sr.toNat
        ≡ t.fsync.sr.toNat * 4 ^ es.length + packDibits es [MOD 2 ^ 48] := h'.sr
      _ ≡ (s.fsync.sr.toNat * 4 ^ ds.length + packDibits ds) * 4 ^ es.length + packDibits es [MOD 2 ^ 48] :=
        (h.sr.mul_right _).add_right _
      _ = s.fsync.sr.toNat * 4 ^ (ds ++ es).length + packDibits (ds ++ es) := by
        rw [packDibits_append, List.length_append]
        ring
  case srv =>
    have hfst := h.srv
    have hsnd := h'.srv
    rw [List.length_append]
    omega

theorem takeDibit_shiftedIn (d : Dibit) (conf : BitVec 8) (s : State) :
    ShiftedIn [d] s (takeDibit d conf s) := by
  refine ⟨(takeDibit_frame d conf s).ctl, ?sr, (toNat_takeDibit_srv d conf s).ge⟩
  rw [takeDibit_sr, toNat_windowAfter]
  simpa [packDibits] using Nat.mod_modEq _ _

/-- A run of DIBITs shifts its dibits in, whatever state each of them meets. -/
theorem execAll_dibits_shiftedIn {ds : List (Dibit × BitVec 8)} {s t : State}
    (h : execAll (ds.map fun x => Instr.dibit x.1 x.2) s = .next t) : ShiftedIn (ds.map Prod.fst) s t := by
  induction ds generalizing s with
  | nil =>
    cases h
    exact .nil _
  | cons x ds ih => exact (takeDibit_shiftedIn x.1 x.2 s).trans (ih h)

/-- Twenty-four dibits push everything older out of the window. -/
theorem ShiftedIn.sr_of_length {ds : List Dibit} {s t : State} (h : ShiftedIn ds s t) (hlen : ds.length = 24) :
    t.fsync.sr = BitVec.ofNat 48 (packDibits ds) := by
  have hsr := h.sr
  rw [hlen, Nat.ModEq] at hsr
  apply BitVec.eq_of_toNat_eq
  rw [BitVec.toNat_ofNat]
  have hlt := t.fsync.sr.isLt
  omega

/-- Settles O27: after 23 dibits the next fills the window, and it holds those 24 whatever came before; so its
distance alone decides. -/
theorem twentyFourDibitsDecideTheMatch : Obligations.TwentyFourDibitsDecideTheMatch := by
  intro s s23 t ds d conf hlen hrun hlast
  obtain rfl : takeDibit d conf s23 = t := Host.Outcome.next.inj hlast
  have hshift := execAll_dibits_shiftedIn hrun
  have hsr := (hshift.trans (takeDibit_shiftedIn d conf s23)).sr_of_length (by simp [hlen])
  have hfull : 24 ≤ s23.fsync.srv.toNat + 1 := by
    have hsrv := hshift.srv
    rw [List.length_map, hlen] at hsrv
    omega
  have hdist : distanceAfter d s23 =
      popcount (BitVec.ofNat 48 (packDibits (ds.map Prod.fst ++ [d])) ^^^ s.ctl.syncpat) := by
    rw [distanceAfter, ← takeDibit_sr d conf, hsr, hshift.ctl]
  rw [← hdist, ← hshift.ctl]
  refine ⟨fun hle hopen => ?near, fun hgt => ?far⟩
  case near =>
    rw [takeDibit_of_match ⟨hfull, hle, hopen⟩]
    exact ⟨rfl, rfl, by rw [startCandidate_nid]; rfl⟩
  case far => exact takeDibit_synccnt_of_no_match (fun ⟨_, hle, _⟩ => Nat.not_le.2 hgt hle) conf

end Sys2Proof.Machine

namespace Sys2Proof.Machine

/-! ### NIDDEC: the two outcomes and what they leave alone (O29, O31) -/

theorem nidDecode_of_near {s : State} {c : CodeWord}
    (h : nearest (nidCode s.fsync.nidacc) s.ctl.nidt.toNat = some c) :
    nidDecode s = acceptNid c (popcount (nidCode s.fsync.nidacc ^^^ c)) (latchNid s) := by
  rcases nidDecode_cases s with ⟨c', hc', heq⟩ | ⟨hnone, -⟩
  · rwa [← Option.some.inj (h.symm.trans hc')] at heq
  · exact absurd (h.symm.trans hnone) (Option.some_ne_none c)

theorem nidDecode_of_far {s : State} (h : nearest (nidCode s.fsync.nidacc) s.ctl.nidt.toNat = none) :
    nidDecode s = rejectNid (latchNid s) := by
  rcases nidDecode_cases s with ⟨c, hc, -⟩ | ⟨-, heq⟩
  · exact absurd (hc.symm.trans h) (Option.some_ne_none c)
  · exact heq

/-- With every codeword beyond the radius the search answers nothing (rule R194). -/
theorem nearest_eq_none {r : CodeWord} {t : Nat} (h : ∀ m, t < popcount (r ^^^ enc m)) : nearest r t = none := by
  rw [← Option.not_isSome_iff_eq_none, nearest_isSome_iff]
  rintro ⟨m, hm⟩
  exact Nat.not_le.2 (h m) hm

/-- Settles O29: no codeword is within the radius, so the search answers nothing and the NID is rejected. -/
theorem niddecRejectsWhenNoCodewordIsNear : Obligations.NiddecRejectsWhenNoCodewordIsNear := by
  intro s hfar
  refine ⟨rejectNid (latchNid s), ?_, rfl, rfl, rfl, rfl, rfl, rfl, rfl, rfl⟩
  exact congrArg Host.Outcome.next (nidDecode_of_far (nearest_eq_none hfar))

theorem openFrame_of_le {s : State} (h : s.fsync.flen.toNat ≤ s.fsync.pos.toNat) :
    openFrame s = backToSearch (emit (.frameEnd .len s.fsync.pos) s) :=
  if_pos h

theorem openFrame_of_lt {s : State} (h : s.fsync.pos.toNat < s.fsync.flen.toNat) :
    openFrame s = { s with fsync := { s.fsync with fstate := .payload } } :=
  if_neg (Nat.not_le.2 h)

theorem openFrame_evt (s : State) : (openFrame s).evt = s.evt := by
  rcases openFrame_cases s with ⟨-, h⟩ | ⟨-, h⟩ <;> exact congrArg (·.evt) h

/-- An accepted NID counts one frame, whatever the length says (rule R198). -/
theorem acceptNid_nid (c : CodeWord) (nerr : Nat) (s : State) :
    (acceptNid c nerr s).nid = { s.nid with framecnt := s.nid.framecnt + 1 } :=
  openFrame_nid _

theorem acceptNid_evt (c : CodeWord) (nerr : Nat) (s : State) :
    (acceptNid c nerr s).evt = s.evt ||| 0b00100#5 :=
  openFrame_evt _

/-- An accepted NID whose length is reached already: END at once (rule R201). -/
theorem acceptNid_of_len_le {c : CodeWord} {s : State}
    (h : (dutEntry (duidOf c) s.ctl).len.toNat ≤ s.fsync.pos.toNat) (nerr : Nat) :
    (acceptNid c nerr s).fsync = { s.fsync with
      flen := (dutEntry (duidOf c) s.ctl).len, fstate := .search, srchcnt := 0#16 } ∧
    Emits s (acceptNid c nerr s) [headerToken c nerr s, .frameEnd .len s.fsync.pos] := by
  rw [acceptNid, openFrame_of_le]
  · exact ⟨rfl, by simp [Emits]⟩
  · exact h

/-- An accepted NID with payload to come (rule R201). -/
theorem acceptNid_of_lt_len {c : CodeWord} {s : State}
    (h : s.fsync.pos.toNat < (dutEntry (duidOf c) s.ctl).len.toNat) (nerr : Nat) :
    (acceptNid c nerr s).fsync = { s.fsync with
      flen := (dutEntry (duidOf c) s.ctl).len, fstate := .payload } ∧
    Emits s (acceptNid c nerr s) [headerToken c nerr s] := by
  rw [acceptNid, openFrame_of_lt]
  · exact ⟨rfl, rfl⟩
  · exact h

/-- LASTNID is written in both outcomes (rule R197). -/
theorem nidDecode_lastnid (s : State) : (nidDecode s).nid.lastnid = s.fsync.nidacc := by
  rcases nidDecode_cases s with ⟨c, -, h⟩ | ⟨-, h⟩ <;> rw [h]
  · rw [acceptNid_nid]
    rfl
  · rfl

/-- Settles O31: the frame is NIDDEC's own, and each of its three ends gives FSTATE, SRCHCNT and the tokens. -/
theorem niddecTouchesOnlyItsOwnState : Obligations.NiddecTouchesOnlyItsOwnState := by
  intro s
  obtain ⟨hdemod, hctl, hscript, hrdata⟩ := nidDecode_frame s
  rcases nidDecode_cases s with ⟨c, -, h⟩ | ⟨-, h⟩
  · have hevt : (nidDecode s).evt = s.evt ||| 0b00100#5 := by
      rw [h, acceptNid_evt]
      rfl
    have hnid : (nidDecode s).nid =
        { s.nid with lastnid := s.fsync.nidacc, framecnt := s.nid.framecnt + 1 } := by
      rw [h, acceptNid_nid]
      rfl
    rcases Nat.lt_or_ge s.fsync.pos.toNat (dutEntry (duidOf c) s.ctl).len.toNat with hlt | hle
    case inl =>
      obtain ⟨hf, he⟩ := acceptNid_of_lt_len (s := latchNid s) hlt (popcount (nidCode s.fsync.nidacc ^^^ c))
      rw [← h] at hf he
      exact ⟨_, _, rfl, hdemod, hctl, hscript, hrdata, he, by simp, by simp, by rw [hf]; rfl,
        .inr (by rw [hf]; exact ⟨rfl, rfl⟩), .inl ⟨hevt, hnid⟩⟩
    case inr =>
      obtain ⟨hf, he⟩ := acceptNid_of_len_le (s := latchNid s) hle (popcount (nidCode s.fsync.nidacc ^^^ c))
      rw [← h] at hf he
      exact ⟨_, _, rfl, hdemod, hctl, hscript, hrdata, he, by simp, by simp, by rw [hf]; rfl,
        .inl (by rw [hf]; exact ⟨rfl, rfl⟩), .inl ⟨hevt, hnid⟩⟩
  · refine ⟨nidDecode s, [.decerr s.fsync.nidacc], rfl, hdemod, hctl, hscript, hrdata, ?_⟩
    rw [h]
    exact ⟨rfl, by simp, by simp, rfl, .inl ⟨rfl, rfl⟩, .inr ⟨rfl, rfl, rfl, rfl⟩⟩

end Sys2Proof.Machine

namespace Sys2Proof.Machine

/-! ### Counting ones -/

theorem popcount_eq_card_bitIndices {w : Nat} (v : BitVec w) :
    popcount v = v.toNat.bitIndices.toFinset.card := by
  have hset : v.toNat.bitIndices.toFinset = ((List.range w).filter fun i => v.getLsbD i).toFinset := by
    ext i
    simp only [List.mem_toFinset, Nat.mem_bitIndices, List.mem_filter, List.mem_range, BitVec.testBit_toNat]
    exact ⟨fun h => ⟨BitVec.lt_of_getLsbD h, h⟩, fun h => h.2⟩
  rw [hset, List.toFinset_card_of_nodup (List.nodup_range.filter _), popcount, List.countP_eq_length_filter]

/-- The ones of an xor are ones of one of the two words. -/
theorem popcount_xor_le {w : Nat} (x y : BitVec w) : popcount (x ^^^ y) ≤ popcount x + popcount y := by
  simp only [popcount_eq_card_bitIndices]
  refine le_trans (Finset.card_le_card fun i hi => ?_) (Finset.card_union_le _ _)
  simp only [List.mem_toFinset, Nat.mem_bitIndices, Finset.mem_union, BitVec.toNat_xor, Nat.testBit_xor] at hi ⊢
  cases hx : x.toNat.testBit i with
  | true => exact .inl rfl
  | false => exact .inr (by simpa [hx] using hi)

/-- The Hamming distance satisfies the triangle inequality. -/
theorem popcount_xor_triangle {w : Nat} (r x y : BitVec w) :
    popcount (x ^^^ y) ≤ popcount (r ^^^ x) + popcount (r ^^^ y) := by
  have hcancel : x ^^^ y = (r ^^^ x) ^^^ (r ^^^ y) := by
    rw [BitVec.xor_comm r x, BitVec.xor_assoc, ← BitVec.xor_assoc r r y, BitVec.xor_self, BitVec.zero_xor]
  rw [hcancel]
  exact popcount_xor_le _ _

/-! ### The code as the multiples of GPOLY -/

theorem pmod_enc (m : BitVec 16) : pmod (enc m).toNat Config.gpoly = 0 := by
  have hshort : pmod (pmod (m.toNat <<< 47) Config.gpoly) Config.gpoly = pmod (m.toNat <<< 47) Config.gpoly :=
    pmod_of_short (bitlen_pmod_lt gpoly_ne_zero _)
  rw [enc_toNat, pmod_xor gpoly_ne_zero, hshort, Nat.xor_self]

theorem pmod_gpoly_lt (a : Nat) : pmod a Config.gpoly < 2 ^ 47 := by
  have h := bitlen_pmod_lt gpoly_ne_zero a
  rw [bitlen_gpoly] at h
  exact bitlen_le_iff.1 (Nat.lt_succ_iff.1 h)

/-- The code is systematic: the message stands above the check bits (rule R192). -/
theorem enc_extract_message (m : BitVec 16) : (enc m).extractLsb' 47 16 = m := by
  apply BitVec.eq_of_toNat_eq
  rw [BitVec.extractLsb'_toNat, enc_toNat, Nat.shiftRight_xor_distrib, Nat.shiftLeft_shiftRight,
    Nat.shiftRight_eq_div_pow, Nat.div_eq_of_lt (pmod_gpoly_lt _), Nat.xor_zero, Nat.mod_eq_of_lt m.isLt]

theorem xor_xor_xor_swap (a b c d : Nat) : (a ^^^ b) ^^^ (c ^^^ d) = (a ^^^ c) ^^^ (b ^^^ d) := by
  rw [Nat.xor_assoc, Nat.xor_assoc, Nat.xor_left_comm b c d]

theorem enc_xor (m m' : BitVec 16) : enc m ^^^ enc m' = enc (m ^^^ m') := by
  apply BitVec.eq_of_toNat_eq
  rw [BitVec.toNat_xor, enc_toNat, enc_toNat, enc_toNat, BitVec.toNat_xor, Nat.shiftLeft_xor_distrib,
    pmod_xor gpoly_ne_zero, xor_xor_xor_swap]

/-- A word without remainder is the codeword of its upper 16 bits: its other bits are their remainder. -/
theorem eq_enc_of_pmod_eq_zero {c : CodeWord} (h : pmod c.toNat Config.gpoly = 0) :
    c = enc (c.extractLsb' 47 16) := by
  have hc := c.isLt
  have hm : (c.extractLsb' 47 16).toNat = c.toNat >>> 47 := by
    rw [BitVec.extractLsb'_toNat, Nat.shiftRight_eq_div_pow]
    omega
  have hlow : c.toNat % 2 ^ 47 < 2 ^ 47 := Nat.mod_lt _ (by decide)
  have hsplit : c.toNat = (c.toNat >>> 47) <<< 47 ^^^ c.toNat % 2 ^ 47 := by
    apply Nat.eq_of_testBit_eq
    intro i
    rw [Nat.testBit_xor, Nat.testBit_shiftLeft, Nat.testBit_shiftRight, Nat.testBit_mod_two_pow]
    by_cases hi : i < 47
    · simp [hi, Nat.not_le.2 hi]
    · simp [hi, Nat.not_lt.1 hi]
  have hrem : pmod ((c.toNat >>> 47) <<< 47) Config.gpoly = c.toNat % 2 ^ 47 := by
    have hshort : pmod (c.toNat % 2 ^ 47) Config.gpoly = c.toNat % 2 ^ 47 :=
      pmod_of_short (by rw [bitlen_gpoly, Nat.lt_succ_iff]; exact bitlen_le_iff.2 hlow)
    rw [hsplit, pmod_xor gpoly_ne_zero, hshort] at h
    exact Nat.xor_eq_zero_iff.1 h
  apply BitVec.eq_of_toNat_eq
  rw [enc_toNat, hm, hrem]
  exact hsplit

/-- Rule R192's second form: the codewords are the words without remainder. -/
theorem pmod_eq_zero_iff_codeword (c : CodeWord) : pmod c.toNat Config.gpoly = 0 ↔ ∃ m, c = enc m := by
  constructor
  · exact fun h => ⟨_, eq_enc_of_pmod_eq_zero h⟩
  · rintro ⟨m, rfl⟩
    exact pmod_enc m

/-! ### Words as polynomials over GF(2) and their values -/

/-- The value at `x` of the polynomial over GF(2) whose coefficients are the bits of `a` (rule R18). -/
def polyEval {K : Type*} [Semiring K] (x : K) (a : Nat) : K := ∑ i ∈ a.bitIndices.toFinset, x ^ i

section Eval
variable {K : Type*} [CommRing K] (x : K)

@[simp] theorem polyEval_zero : polyEval x 0 = 0 := by simp [polyEval]

theorem polyEval_two_pow (k : Nat) : polyEval x (2 ^ k) = x ^ k := by simp [polyEval]

theorem polyEval_eq_sum_range {a n : Nat} (ha : a < 2 ^ n) :
    polyEval x a = ∑ i ∈ Finset.range n, if a.testBit i then x ^ i else 0 := by
  rw [← Finset.sum_filter, polyEval]
  congr 1
  ext i
  simp only [List.mem_toFinset, Nat.mem_bitIndices, Finset.mem_filter, Finset.mem_range]
  exact ⟨fun h => ⟨Nat.lt_of_not_ge fun hn => by
    rw [Nat.testBit_lt_two_pow (ha.trans_le (Nat.pow_le_pow_right (by decide) hn))] at h
    exact Bool.false_ne_true h, h⟩, fun h => h.2⟩

theorem polyEval_shiftLeft (a k : Nat) : polyEval x (a <<< k) = x ^ k * polyEval x a := by
  have hset : (a <<< k).bitIndices.toFinset = a.bitIndices.toFinset.map (addLeftEmbedding k) := by
    ext i
    simp only [List.mem_toFinset, Nat.mem_bitIndices, Nat.testBit_shiftLeft, Finset.mem_map, addLeftEmbedding_apply]
    constructor
    · intro h
      simp only [ge_iff_le, Bool.and_eq_true, decide_eq_true_eq] at h
      exact ⟨i - k, h.2, Nat.add_sub_cancel' h.1⟩
    · rintro ⟨j, hj, rfl⟩
      simpa using hj
  simp only [polyEval, hset, Finset.sum_map, addLeftEmbedding_apply, pow_add, Finset.mul_sum]

/-- In characteristic 2 the value is linear: a bit that both words have counts twice. -/
theorem polyEval_xor [CharP K 2] (a b : Nat) : polyEval x (a ^^^ b) = polyEval x a + polyEval x b := by
  have hset : (a ^^^ b).bitIndices.toFinset =
      (a.bitIndices.toFinset \ b.bitIndices.toFinset) ∪ (b.bitIndices.toFinset \ a.bitIndices.toFinset) := by
    ext i
    simp only [List.mem_toFinset, Nat.mem_bitIndices, Nat.testBit_xor, Finset.mem_union, Finset.mem_sdiff]
    cases a.testBit i <;> cases b.testBit i <;> decide
  have ha := Finset.sum_inter_add_sum_sdiff a.bitIndices.toFinset b.bitIndices.toFinset (fun i => x ^ i)
  have hb := Finset.sum_inter_add_sum_sdiff b.bitIndices.toFinset a.bitIndices.toFinset (fun i => x ^ i)
  rw [Finset.inter_comm] at hb
  rw [polyEval, hset, Finset.sum_union disjoint_sdiff_sdiff, polyEval, polyEval, ← ha, ← hb]
  linear_combination -(CharTwo.add_self_eq_zero (∑ i ∈ a.bitIndices.toFinset ∩ b.bitIndices.toFinset, x ^ i))

/-- At a root of `g` a word and its remainder by `g` have the same value. -/
theorem polyEval_pmod [CharP K 2] {g : Nat} (hg : g ≠ 0) (hroot : polyEval x g = 0) (a : Nat) :
    polyEval x (pmod a g) = polyEval x a := by
  induction hn : bitlen a using Nat.strong_induction_on generalizing a with
  | _ n ih =>
    by_cases hle : bitlen g ≤ bitlen a
    · rw [pmod_round hg hle, ih _ (hn ▸ bitlen_round_lt hg hle) _ rfl, polyEval_xor, polyEval_shiftLeft, hroot,
        mul_zero, add_zero]
    · rw [pmod_of_short (Nat.not_le.1 hle)]

end Eval

/-! ### The BCH bound -/

open Polynomial in
/-- If the first `d` power sums of distinct nonzero field elements vanish, there are more than `d` of them: a product
of linear factors would vanish at all of them but one. -/
theorem lt_card_of_power_sums_eq_zero {K ι : Type*} [Field K] [DecidableEq ι] {S : Finset ι} {x : ι → K} {d : Nat}
    (hinj : Set.InjOn x S) (hx : ∀ i ∈ S, x i ≠ 0) (hS : S.Nonempty)
    (hsum : ∀ j < d, ∑ i ∈ S, x i ^ (j + 1) = 0) : d < S.card := by
  by_contra hcard
  obtain ⟨i₀, hi₀⟩ := hS
  have hdeg : (Lagrange.nodal (S.erase i₀) x).natDegree < d := by
    rw [Lagrange.natDegree_nodal, Finset.card_erase_of_mem hi₀]
    have := Finset.card_pos.2 ⟨i₀, hi₀⟩
    omega
  have hzero : ∑ i ∈ S, x i * (Lagrange.nodal (S.erase i₀) x).eval (x i) = 0 := by
    simp only [eval_eq_sum_range' hdeg, Finset.mul_sum]
    rw [Finset.sum_comm]
    refine Finset.sum_eq_zero fun j hj => ?_
    rw [← mul_zero ((Lagrange.nodal (S.erase i₀) x).coeff j), ← hsum j (Finset.mem_range.1 hj), Finset.mul_sum]
    exact Finset.sum_congr rfl fun i _ => by ring
  rw [Finset.sum_eq_single_of_mem i₀ hi₀ fun i hi hne => by
    rw [Lagrange.eval_nodal_at_node (Finset.mem_erase.2 ⟨hne, hi⟩), mul_zero]] at hzero
  refine mul_ne_zero (hx i₀ hi₀) (Lagrange.eval_nodal_not_at_node fun j hj heq => ?_) hzero
  obtain ⟨hne, hjS⟩ := Finset.mem_erase.1 hj
  exact hne (hinj hjS hi₀ heq.symm)

/-! ### The roots of GPOLY -/

/-- `x^6 + x + 1`, primitive over GF(2): its roots have order 63. -/
def primitivePoly : Nat := 0b1000011

/-- The word whose value at `α` is the value of `a`'s bits below `n` at `α^j`, where `α^63 = 1`. -/
def powerWord (j a : Nat) : Nat → Nat
  | 0 => 0
  | n + 1 => powerWord j a n ^^^ (if a.testBit n then 2 ^ (j * n % 63) else 0)

/-- GPOLY has the 22 roots `α, α^2, …, α^22`, where `α` is a root of the primitive polynomial. -/
theorem pmod_powerWord_gpoly : ∀ j < 22, pmod (powerWord (j + 1) Config.gpoly 48) primitivePoly = 0 := by decide

section Roots
variable {K : Type*} [Field K] [CharP K 2] {α : K}

theorem pow_eq_polyEval_pmod (hα : polyEval α primitivePoly = 0) (k : Nat) :
    α ^ k = polyEval α (pmod (2 ^ k) primitivePoly) := by
  rw [polyEval_pmod α (by decide) hα, polyEval_two_pow]

theorem root_pow_63 (hα : polyEval α primitivePoly = 0) : α ^ 63 = 1 := by
  rw [pow_eq_polyEval_pmod hα, show pmod (2 ^ 63) primitivePoly = 2 ^ 0 by decide, polyEval_two_pow, pow_zero]

theorem root_ne_zero (hα : polyEval α primitivePoly = 0) : α ≠ 0 := by
  rintro rfl
  exact zero_ne_one ((zero_pow (by decide)).symm.trans (root_pow_63 hα))

/-- Where `α^k + 1` is again a power of `α`, it is not zero. -/
theorem root_pow_ne_one (hα : polyEval α primitivePoly = 0) {k z : Nat}
    (hz : pmod (2 ^ k) primitivePoly ^^^ 2 ^ 0 = pmod (2 ^ z) primitivePoly) : α ^ k ≠ 1 := by
  intro hk
  have hsum : α ^ k + 1 = α ^ z := by
    rw [pow_eq_polyEval_pmod hα k, pow_eq_polyEval_pmod hα z, ← hz, polyEval_xor, polyEval_two_pow, pow_zero]
  rw [hk, CharTwo.add_self_eq_zero] at hsum
  exact pow_ne_zero z (root_ne_zero hα) hsum.symm

/-- A root of the primitive polynomial has order 63: `α^9 + 1 = α^45` and `α^21 + 1 = α^42`. -/
theorem orderOf_root (hα : polyEval α primitivePoly = 0) : orderOf α = 63 := by
  refine orderOf_eq_of_pow_and_pow_div_prime (by decide) (root_pow_63 hα) fun p hp hdvd => ?_
  rcases hp.dvd_mul.1 (show p ∣ 3 ^ 2 * 7 from hdvd) with h3 | h7
  · obtain rfl := (Nat.prime_dvd_prime_iff_eq hp Nat.prime_three).1 (hp.dvd_of_dvd_pow h3)
    exact root_pow_ne_one (k := 21) (z := 42) hα (by decide)
  · obtain rfl := (Nat.prime_dvd_prime_iff_eq hp Nat.prime_seven).1 h7
    exact root_pow_ne_one (k := 9) (z := 45) hα (by decide)

/-- `powerWord` is the substitution it names. -/
theorem polyEval_powerWord (hα : polyEval α primitivePoly = 0) (j a n : Nat) :
    polyEval α (powerWord j a n) = ∑ i ∈ Finset.range n, if a.testBit i then (α ^ j) ^ i else 0 := by
  induction n with
  | zero => simp [powerWord]
  | succ n ih =>
    have hpow : α ^ (j * n % 63) = (α ^ j) ^ n := by
      rw [← pow_eq_pow_mod _ (root_pow_63 hα), pow_mul]
    rw [powerWord, polyEval_xor, ih, Finset.sum_range_succ]
    split
    · rw [polyEval_two_pow, hpow]
    · rw [polyEval_zero]

/-- GPOLY vanishes at the first 22 powers of `α`. -/
theorem polyEval_gpoly (hα : polyEval α primitivePoly = 0) {j : Nat} (hj : j < 22) :
    polyEval (α ^ (j + 1)) Config.gpoly = 0 := by
  rw [polyEval_eq_sum_range _ (show Config.gpoly < 2 ^ 48 by decide), ← polyEval_powerWord hα,
    ← polyEval_pmod α (by decide) hα, pmod_powerWord_gpoly j hj, polyEval_zero]

/-- Every nonzero codeword has at least 23 ones: its power sums over the 22 consecutive roots vanish. -/
theorem le_popcount_enc_of_root (hα : polyEval α primitivePoly = 0) {m : BitVec 16} (hm : m ≠ 0#16) :
    23 ≤ popcount (enc m) := by
  rw [popcount_eq_card_bitIndices]
  refine lt_card_of_power_sums_eq_zero (x := fun i => α ^ i) ?inj (fun i _ => pow_ne_zero i (root_ne_zero hα)) ?ne ?sum
  case inj =>
    refine (pow_injOn_Iio_orderOf (x := α)).mono fun i hi => ?_
    rw [orderOf_root hα, Set.mem_Iio]
    simp only [List.coe_toFinset, Nat.mem_bitIndices, Set.mem_ofPred_eq, BitVec.testBit_toNat] at hi
    exact BitVec.lt_of_getLsbD hi
  case ne =>
    have hne : (enc m).toNat ≠ 0 := by
      intro h
      refine hm ?_
      rw [← enc_extract_message m, BitVec.eq_of_toNat_eq (y := 0#63) h]
      rfl
    obtain ⟨i, hi⟩ := Nat.exists_testBit_of_ne_zero hne
    exact ⟨i, List.mem_toFinset.2 (Nat.mem_bitIndices.2 hi)⟩
  case sum =>
    intro j hj
    have hval : polyEval (α ^ (j + 1)) (enc m).toNat = 0 := by
      rw [← polyEval_pmod _ gpoly_ne_zero (polyEval_gpoly hα hj), pmod_enc, polyEval_zero]
    rw [← hval, polyEval]
    exact Finset.sum_congr rfl fun i _ => pow_right_comm α i (j + 1)

end Roots

open Polynomial in
/-- The algebraic closure of GF(2) has a root of the primitive polynomial. -/
theorem exists_root_primitivePoly : ∃ α : AlgebraicClosure (ZMod 2), polyEval α primitivePoly = 0 := by
  obtain ⟨α, hα⟩ := IsAlgClosed.exists_root (X ^ 6 + X + 1 : (AlgebraicClosure (ZMod 2))[X])
    (by rw [show (X ^ 6 + X + 1 : (AlgebraicClosure (ZMod 2))[X]).degree = 6 by compute_degree!]; decide)
  refine ⟨α, ?_⟩
  have hword : primitivePoly = 2 ^ 6 ^^^ 2 ^ 1 ^^^ 2 ^ 0 := by decide
  rw [hword, polyEval_xor, polyEval_xor, polyEval_two_pow, polyEval_two_pow, polyEval_two_pow]
  simpa using hα

/-- The weight bound of rule R193. -/
theorem le_popcount_enc {m : BitVec 16} (hm : m ≠ 0#16) : 23 ≤ popcount (enc m) := by
  obtain ⟨α, hα⟩ := exists_root_primitivePoly
  exact le_popcount_enc_of_root hα hm

/-- The distance of two codewords is the weight of the codeword of the xor. -/
theorem le_popcount_enc_xor_enc {m m' : BitVec 16} (h : m ≠ m') : 23 ≤ popcount (enc m ^^^ enc m') := by
  rw [enc_xor]
  exact le_popcount_enc (mt BitVec.xor_eq_zero_iff.1 h)

/-- At most one codeword lies within 11 bits of a word: two would lie within 22 bits of each other. -/
theorem message_unique {r : CodeWord} {m m' : BitVec 16} (h : popcount (r ^^^ enc m) ≤ 11)
    (h' : popcount (r ^^^ enc m') ≤ 11) : m = m' := by
  by_contra hne
  have hfar := le_popcount_enc_xor_enc hne
  have htriangle := popcount_xor_triangle r (enc m) (enc m')
  omega

/-- Settles O32: the weight bound is the BCH bound on the 22 consecutive roots of GPOLY, and the code is linear. -/
theorem nidCodeHasMinimumDistance23 : Obligations.NidCodeHasMinimumDistance23 :=
  ⟨by decide, fun _ => le_popcount_enc, enc_xor, fun _ _ => le_popcount_enc_xor_enc, fun _ _ _ => message_unique⟩

/-- Settles O33: `enc` leaves no remainder, a word without remainder is determined by its upper 16 bits, and two
codewords at distance 23 attain the bound of O32. -/
theorem codewordsAreTheMultiplesOfGpoly : Obligations.CodewordsAreTheMultiplesOfGpoly :=
  ⟨enc_toNat, enc_extract_message, pmod_eq_zero_iff_codeword, fun _ _ => le_popcount_enc_xor_enc,
    ⟨0#16, 4#16, by decide⟩, by decide, by decide, by decide⟩

end Sys2Proof.Machine

namespace Sys2Proof.Machine

/-! ### NIDDEC accepts the one codeword within its radius (O28) -/

theorem extractLsb'_extractLsb' {w start len start' len' : Nat} (h : start' + len' ≤ len) (v : BitVec w) :
    (v.extractLsb' start len).extractLsb' start' len' = v.extractLsb' (start + start') len' := by
  apply BitVec.eq_of_getLsbD_eq
  intro i hi
  have hin : start' + i < len := by omega
  simp only [BitVec.getLsbD_extractLsb', hi, hin, decide_true, Bool.true_and, Nat.add_assoc]

/-- The fields of a codeword are those of its message (rule R195). -/
theorem nacOf_enc (m : BitVec 16) : nacOf (enc m) = m.extractLsb' 4 12 := by
  conv_rhs => rw [← enc_extract_message m, extractLsb'_extractLsb' (by decide)]
  rfl

theorem duidOf_enc (m : BitVec 16) : duidOf (enc m) = m.extractLsb' 0 4 := by
  conv_rhs => rw [← enc_extract_message m, extractLsb'_extractLsb' (by decide)]
  rfl

theorem headerToken_enc (m : BitVec 16) (nerr : Nat) (s : State) :
    headerToken (enc m) nerr s = .hdr s.fsync.tstamp (m.extractLsb' 4 12) (m.extractLsb' 0 4)
      (dutEntry (m.extractLsb' 0 4) s.ctl).cls (nidParity s.fsync.nidacc) (BitVec.ofNat 4 nerr) s.fsync.syncq := by
  rw [headerToken, nacOf_enc, duidOf_enc]

/-- Within a radius of at most 11 the search answers the one codeword there is (rule R194). -/
theorem nearest_eq_enc {r : CodeWord} {t : Nat} {m : BitVec 16} (ht : t ≤ 11) (h : popcount (r ^^^ enc m) ≤ t) :
    nearest r t = some (enc m) := by
  obtain ⟨c, hc⟩ := Option.isSome_iff_exists.1 ((nearest_isSome_iff r t).2 ⟨m, h⟩)
  obtain ⟨m', rfl, hm'⟩ := nearest_some hc
  rw [hc, message_unique (hm'.trans ht) (h.trans ht)]

/-- Settles O28: the search answers the codeword of `m` and no other, so NIDDEC accepts it. -/
theorem niddecAcceptsANearbyCodeword : Obligations.NiddecAcceptsANearbyCodeword := by
  refine ⟨fun s m hradius hnear => ?accept, fun s t h => ?lastnid⟩
  case lastnid =>
    obtain rfl : nidDecode s = t := Host.Outcome.next.inj h
    exact nidDecode_lastnid s
  case accept =>
    have h := nidDecode_of_near (nearest_eq_enc hradius hnear)
    obtain ⟨hdemod, hctl, hscript, hrdata⟩ := nidDecode_frame s
    refine ⟨nidDecode s, rfl, by omega, ?nid, ?evt, hdemod, hctl, hscript, hrdata, ?_⟩
    case nid =>
      rw [h, acceptNid_nid]
      rfl
    case evt =>
      rw [h, acceptNid_evt]
      rfl
    have hclosed := acceptNid_of_len_le (c := enc m) (s := latchNid s)
    have hopened := acceptNid_of_lt_len (c := enc m) (s := latchNid s)
    simp only [headerToken_enc, duidOf_enc] at hclosed hopened
    rw [h]
    exact ⟨fun hle => hclosed hle _, fun hlt => hopened hlt _⟩

end Sys2Proof.Machine

namespace Sys2Proof.Machine

/-! ### The register map in both directions (O35, O36, O37) -/

/-- The number of a register in the map of rule R43. -/
def csrNumber : Csr → RegNum
  | .dutab d => 2#4 ++ d
  | r => BitVec.ofNat 8 (fixedCsrs.idxOf r)

theorem csrOf_dutab (d : BitVec 4) : csrOf (2#4 ++ d) = some (.dutab d) := by
  revert d
  decide

/-- The register with number `a` has number `a`. -/
theorem csrNumber_of_csrOf {a : RegNum} {r : Csr} (h : csrOf a = some r) : csrNumber r = a := by
  by_cases hd : a.extractLsb' 4 4 = 2#4
  · obtain rfl : Csr.dutab (a.extractLsb' 0 4) = r := by simpa [csrOf, hd] using h
    rw [csrNumber, ← hd]
    apply BitVec.eq_of_toNat_eq
    rw [toNat_append_eq_add, BitVec.extractLsb'_toNat, BitVec.extractLsb'_toNat, Nat.shiftRight_eq_div_pow,
      Nat.shiftRight_zero]
    omega
  · rw [csrOf, if_neg hd] at h
    obtain ⟨hlt, rfl⟩ := List.getElem?_eq_some_iff.1 h
    have hidx : fixedCsrs.idxOf fixedCsrs[a.toNat] = a.toNat := List.Nodup.idxOf_getElem (by decide) a.toNat hlt
    have hfixed : ∀ r ∈ fixedCsrs, csrNumber r = BitVec.ofNat 8 (fixedCsrs.idxOf r) := by decide
    rw [hfixed _ (List.getElem_mem hlt), hidx, BitVec.ofNat_toNat, BitVec.setWidth_eq]

theorem exec_csrw_of_csrOf {a : RegNum} {r : Csr} (h : csrOf a = some r) (v : Word32) (s : State) :
    exec (.csrw a v) s = .next (writeCsr r v s) := by
  show Host.Outcome.next (writePort a v s) = _
  rw [writePort, h]

theorem exec_csrw_of_unmapped {a : RegNum} (h : Unmapped a) (v : Word32) (s : State) :
    exec (.csrw a v) s = .next (controlError s) := by
  show Host.Outcome.next (writePort a v s) = _
  rw [writePort, (csrOf_eq_none_iff a).2 h]

/-- A control error is CTLERR_EVT set and nothing else (rule R218). -/
theorem controlError_eq (s : State) : controlError s = withControlError s := rfl

/-! ### The read table (O35) -/

/-- A read of a mapped register returns the number its row gives. -/
theorem returns_of_csrOf {a : RegNum} {r : Csr} {s : State} {n : Nat} (h : csrOf a = some r)
    (hn : (readCsr r s).toNat = n) : Returns s a n :=
  ⟨readCsr r s, hn, congrArg _ (readPort_of_csrOf_some h s)⟩

/-- A register of at most 32 bits reads as the number of its fields; every other bit reads 0 (rule R216). -/
theorem returns_of_fields {a : RegNum} {r : Csr} {s : State} {w n : Nat} {fields : BitVec w}
    (h : csrOf a = some r) (hread : readCsr r s = fields.setWidth 32) (hw : w ≤ 32) (hn : fields.toNat = n) :
    Returns s a n :=
  returns_of_csrOf h (by rw [hread, BitVec.toNat_setWidth_of_le hw, hn])

/-- Two fields with unused bits between them, as a number. -/
theorem toNat_append_zero_append {v k w : Nat} (x : BitVec v) (y : BitVec w) :
    (x ++ 0#k ++ y).toNat = 2 ^ (k + w) * x.toNat + y.toNat := by
  rw [toNat_append_eq_add, toNat_append_eq_add, BitVec.toNat_ofNat, Nat.zero_mod, Nat.add_zero, Nat.pow_add,
    ← Nat.mul_assoc, Nat.mul_comm (2 ^ w)]

theorem toNat_ctrlWord (c : Ctl) : (ctrlWord c).toNat =
    c.en.toNat + 2 * c.mode.toNat + 4 * c.symtap.toNat + 8 * c.holdoff.toNat + 16 * c.bypass.toNat := by
  rw [ctrlWord, BitVec.toNat_setWidth_of_le (by decide)]
  simp only [toNat_append_eq_add, BitVec.toNat_ofBool]
  omega

theorem toNat_statusRead (s : State) : (statusRead s).toNat =
    s.demod.locked.toNat + 2 * (sigPresent s).toNat + 4 * (fstateCode s.fsync.fstate).toNat +
      256 * s.evt.toNat := by
  rw [statusRead, BitVec.toNat_setWidth_of_le (by decide)]
  simp only [toNat_append_eq_add, BitVec.toNat_ofBool, BitVec.toNat_ofNat]
  omega

/-- The upper part of a register pair, as the quotient of the whole. -/
theorem toNat_extractLsb'_of_le {w start len : Nat} (h : w ≤ start + len) (x : BitVec w) :
    (x.extractLsb' start len).toNat = x.toNat / 2 ^ start := by
  rw [BitVec.extractLsb'_toNat, Nat.shiftRight_eq_div_pow, Nat.mod_eq_of_lt]
  rw [Nat.div_lt_iff_lt_mul (by positivity), ← Nat.pow_add, Nat.add_comm]
  exact x.isLt.trans_le (Nat.pow_le_pow_right (by decide) h)

/-- Settles O35: one row of the read table after the other; FOFF alone is read with its sign. -/
theorem csrrReturnsTheRegisterTable : Obligations.CsrrReturnsTheRegisterTable := by
  intro s
  refine ⟨returns_of_csrOf (r := .id) rfl rfl, returns_of_csrOf (r := .ctrl) rfl (toNat_ctrlWord s.ctl),
    returns_of_csrOf (r := .cmd) rfl rfl, returns_of_csrOf (r := .status) rfl ?status,
    returns_of_fields (r := .irqen) rfl rfl (by decide) (toNat_append_eq_add s.ctl.irqen 0#8),
    returns_of_fields (r := .sps) rfl rfl (by decide) rfl, returns_of_csrOf (r := .sqthr) rfl rfl,
    returns_of_fields (r := .enshift) rfl rfl (by decide) rfl,
    returns_of_fields (r := .folim) rfl rfl (by decide) rfl,
    returns_of_fields (r := .foshift) rfl rfl (by decide) (toNat_append_eq_add s.ctl.acq s.ctl.trk),
    returns_of_fields (r := .tthr) rfl rfl (by decide) rfl,
    returns_of_fields (r := .tdiv) rfl rfl (by decide) (toNat_append_zero_append s.ctl.uthr s.ctl.lthr),
    returns_of_fields (r := .acqsyms) rfl rfl (by decide) rfl,
    returns_of_fields (r := .syncthr) rfl rfl (by decide) rfl,
    returns_of_csrOf (r := .syncpatl) rfl (BitVec.extractLsb'_toNat 0 32 s.ctl.syncpat),
    returns_of_fields (r := .syncpath) rfl rfl (by decide) (toNat_extractLsb'_of_le (by decide) s.ctl.syncpat),
    returns_of_fields (r := .srchwin) rfl rfl (by decide) rfl,
    returns_of_fields (r := .nidcfg) rfl rfl (by decide) rfl,
    returns_of_csrOf (r := .decerrcnt) rfl rfl, returns_of_csrOf (r := .framecnt) rfl rfl,
    returns_of_csrOf (r := .loscnt) rfl rfl, returns_of_csrOf (r := .synccnt) rfl rfl,
    returns_of_csrOf (r := .tsamp) rfl rfl,
    returns_of_csrOf (r := .foff) rfl (BitVec.toNat_ofInt s.demod.foff.toInt),
    returns_of_csrOf (r := .energy) rfl rfl, returns_of_csrOf (r := .symin) rfl rfl,
    returns_of_csrOf (r := .lastnidl) rfl (BitVec.extractLsb'_toNat 0 32 s.nid.lastnid),
    returns_of_csrOf (r := .lastnidh) rfl (toNat_extractLsb'_of_le (by decide) s.nid.lastnid),
    returns_of_fields (r := .eyeavg) rfl rfl (by decide) rfl,
    returns_of_fields (r := .fpos) rfl rfl (by decide) (toNat_append_zero_append s.fsync.syncq s.fsync.pos),
    returns_of_fields (r := .eshift) rfl rfl (by decide) rfl,
    fun d => returns_of_fields (csrOf_dutab d) rfl (by decide) (toNat_append_eq_add _ _),
    fun a h => congrArg _ (readPort_of_unmapped h s)⟩
  case status =>
    refine (toNat_statusRead s).trans ?_
    cases s.fsync.fstate <;> rfl

end Sys2Proof.Machine

namespace Sys2Proof.Machine

/-! ### The commands (O42, O43, O44) -/

/-- Settles O42: FLUSH is the END of an open frame, then the FLUSH column of rule R66. -/
theorem flushClearsTheDatapath : Obligations.FlushClearsTheDatapath := by
  intro s
  refine ⟨flushBlock s, rfl, flushBlock_demod s, flushBlock_fsync s, flushBlock_nid s, flushBlock_evt s,
    flushBlock_ctl s, closeFrame_io_script .flush s, closeFrame_io_rdata .flush s, ?_⟩
  rw [← closeTokens_eq_ite]
  exact emits_closeFrame .flush s

/-- Settles O43. -/
theorem clrcntClearsTheFourCounters : Obligations.ClrcntClearsTheFourCounters := fun _ => rfl

/-- A write of CMD, by its command bits: bit 31 alone, else bit 0 and then bit 1 (rule R219). -/
theorem exec_csrw_cmd (v : Word32) (s : State) :
    exec (.csrw 0x02#8 v) s = (if v.getLsbD 31 then exec .srst s
      else if v.getLsbD 0 then exec (.flush (v.getLsbD 1)) s
      else if v.getLsbD 1 then exec .clrcnt s else .next s) := by
  rw [exec_csrw_of_csrOf (r := .cmd) rfl]
  show Host.Outcome.next (writeCmd v s) = _
  unfold writeCmd
  cases v.getLsbD 31 with
  | true => rfl
  | false => cases v.getLsbD 0 <;> cases v.getLsbD 1 <;> rfl

/-- Settles O44: the command bits decide which command a CMD word is. -/
theorem cmdWriteOrdersItsCommands : Obligations.CmdWriteOrdersItsCommands := by
  refine ⟨fun v s => ?_, fun s => rfl⟩
  rw [exec_csrw_cmd]
  refine ⟨fun h31 => ?srst, fun h31 h0 h1 => ?flush, fun h31 h0 h1 => ?clrcnt, fun h31 h0 h1 => ?both,
    fun h31 h0 h1 => ?none⟩
  case srst => rw [if_pos h31]
  all_goals
    rw [h31, h0, h1]
    rfl

/-! ### The refused writes (O36, O37, O45) -/

/-- The writes of mapped registers that are control errors: cases (c) to (f) of rule R218. -/
def RefusedWrite (v : Word32) (s : State) : Csr → Prop
  | .sps => legalSps (v.extractLsb' 0 6) = false
  | .nidcfg => legalNidt (v.extractLsb' 0 4) = false
  | .symin => s.ctl.bypass = false
  | .id | .decerrcnt | .framecnt | .loscnt | .synccnt | .tsamp | .foff | .energy | .lastnidl | .lastnidh
  | .eyeavg | .fpos => True
  | .ctrl | .cmd | .status | .irqen | .sqthr | .enshift | .folim | .foshift | .tthr | .tdiv | .acqsyms
  | .syncthr | .syncpatl | .syncpath | .srchwin | .eshift | .dutab _ => False

/-- The legal values of SPS as the low six bits of the data word (10_state.md rule R49). -/
theorem legalSps_iff (v : Word32) : legalSps (v.extractLsb' 0 6) = true ↔
    v.toNat % 64 % 2 = 0 ∧ 4 ≤ v.toNat % 64 ∧ v.toNat % 64 ≤ 32 := by
  simp [legalSps, and_assoc]

/-- The legal values of NIDT as the low four bits of the data word (10_state.md rule R60). -/
theorem legalNidt_iff (v : Word32) : legalNidt (v.extractLsb' 0 4) = true ↔ v.toNat % 16 ≤ 11 := by
  show decide ((v.extractLsb' 0 4).toNat ≤ 11) = true ↔ _
  rw [decide_eq_true_iff, BitVec.extractLsb'_toNat, Nat.shiftRight_zero]

/-- The list of rule R218 by register numbers is the one by registers. -/
theorem writeError_iff_of_csrOf {a : RegNum} {r : Csr} (h : csrOf a = some r) (v : Word32) (s : State) :
    WriteError a v s ↔ RefusedWrite v s r := by
  obtain rfl := csrNumber_of_csrOf h
  cases r with
  | dutab d =>
    have hrange := (highDigit_eq_two_iff (2#4 ++ d)).1 (by revert d; decide)
    simp only [RefusedWrite, csrNumber, WriteError, Unmapped, ReadOnly, iff_false]
    omega
  | sps =>
    have hnum : (csrNumber .sps).toNat = 0x05 := by decide
    rw [RefusedWrite, ← Bool.not_eq_true, legalSps_iff]
    simp only [WriteError, Unmapped, ReadOnly, hnum, Nat.reduceEqDiff, true_and, false_and, false_or,
      or_false]
    omega
  | nidcfg =>
    have hnum : (csrNumber .nidcfg).toNat = 0x11 := by decide
    rw [RefusedWrite, ← Bool.not_eq_true, legalNidt_iff]
    simp only [WriteError, Unmapped, ReadOnly, hnum, Nat.reduceEqDiff, true_and, false_and, false_or,
      or_false]
    omega
  | symin =>
    have hnum : (csrNumber .symin).toNat = 0x19 := by decide
    simp only [RefusedWrite, WriteError, Unmapped, ReadOnly, hnum, Nat.reduceEqDiff, Nat.reduceLeDiff, true_and,
      and_false, false_and, false_or]
  | id | decerrcnt | framecnt | loscnt | synccnt | tsamp | foff | energy | lastnidl | lastnidh | eyeavg
  | fpos => exact iff_of_true (.inr (.inl (by decide))) trivial
  | _ =>
    refine iff_of_false ?_ id
    rintro (h | h | ⟨h, -⟩ | ⟨h, -⟩ | ⟨h, -⟩) <;> exact absurd h (by decide)

/-- A refused write is a control error, and the register keeps its value (rule R218). -/
theorem writeCsr_of_refused {r : Csr} {v : Word32} {s : State} (h : RefusedWrite v s r) :
    writeCsr r v s = withControlError s := by
  cases r with
  | sps => exact if_neg (Bool.not_eq_true _ ▸ h)
  | nidcfg => exact if_neg (Bool.not_eq_true _ ▸ h)
  | symin =>
    have hbypass : s.ctl.bypass = false := h
    simp only [writeCsr, writeSymin, injectMarker, injectDibit, hbypass]
    split <;> rfl
  | id | decerrcnt | framecnt | loscnt | synccnt | tsamp | foff | energy | lastnidl | lastnidh | eyeavg
  | fpos => rfl
  | _ => exact h.elim

/-- Every write of the list of rule R218 is a control error and nothing else. -/
theorem exec_csrw_of_writeError {a : RegNum} {v : Word32} {s : State} (h : WriteError a v s) :
    exec (.csrw a v) s = .next (withControlError s) := by
  cases hr : csrOf a with
  | none => exact exec_csrw_of_unmapped ((csrOf_eq_none_iff a).1 hr) v s
  | some r => rw [exec_csrw_of_csrOf hr, writeCsr_of_refused ((writeError_iff_of_csrOf hr v s).1 h)]

/-! ### The write table (O36) -/

/-- SPS takes a legal value only (rule R217). -/
theorem exec_csrw_sps (v : Word32) (s : State) : exec (.csrw 0x05#8 v) s =
    (if v.toNat % 64 % 2 = 0 ∧ 4 ≤ v.toNat % 64 ∧ v.toNat % 64 ≤ 32 then
      .next { s with ctl := { s.ctl with sps := v.extractLsb' 0 6 } } else .next (withControlError s)) := by
  rw [exec_csrw_of_csrOf (r := .sps) rfl]
  simp only [writeCsr, legalSps_iff]
  split <;> rfl

/-- NIDT takes a legal value only (rule R217). -/
theorem exec_csrw_nidcfg (v : Word32) (s : State) : exec (.csrw 0x11#8 v) s =
    (if v.toNat % 16 ≤ 11 then .next { s with ctl := { s.ctl with nidt := v.extractLsb' 0 4 } }
      else .next (withControlError s)) := by
  rw [exec_csrw_of_csrOf (r := .nidcfg) rfl]
  simp only [writeCsr, legalNidt_iff]
  split <;> rfl

/-- A write of SYMIN is LOSINJ or SYM, by bit 8 of the word (rule R95). -/
theorem exec_csrw_symin (v : Word32) (s : State) : exec (.csrw 0x19#8 v) s =
    (if v.getLsbD 8 then exec .losinj s else exec (.sym (v.extractLsb' 0 2) (v.extractLsb' 16 8)) s) := by
  rw [exec_csrw_of_csrOf (r := .symin) rfl, writeCsr, writeSymin]
  split <;> rfl

/-- Settles O36: one row of the write table after the other. -/
theorem csrwStoresTheRegisterTable : Obligations.CsrwStoresTheRegisterTable := by
  intro v s
  exact ⟨exec_csrw_of_csrOf (r := .ctrl) rfl v s, exec_csrw_cmd v s, exec_csrw_of_csrOf (r := .status) rfl v s,
    exec_csrw_of_csrOf (r := .irqen) rfl v s, exec_csrw_sps v s, exec_csrw_of_csrOf (r := .sqthr) rfl v s,
    exec_csrw_of_csrOf (r := .enshift) rfl v s, exec_csrw_of_csrOf (r := .folim) rfl v s,
    exec_csrw_of_csrOf (r := .foshift) rfl v s, exec_csrw_of_csrOf (r := .tthr) rfl v s,
    exec_csrw_of_csrOf (r := .tdiv) rfl v s, exec_csrw_of_csrOf (r := .acqsyms) rfl v s,
    exec_csrw_of_csrOf (r := .syncthr) rfl v s, exec_csrw_of_csrOf (r := .syncpatl) rfl v s,
    exec_csrw_of_csrOf (r := .syncpath) rfl v s, exec_csrw_of_csrOf (r := .srchwin) rfl v s,
    exec_csrw_nidcfg v s, exec_csrw_symin v s, exec_csrw_of_csrOf (r := .eshift) rfl v s,
    fun d => exec_csrw_of_csrOf (csrOf_dutab d) v s,
    fun a h => exec_csrw_of_writeError (h.elim (fun hr => .inr (.inl hr)) .inl)⟩

end Sys2Proof.Machine

namespace Sys2Proof.Machine

/-! ### Injection (O45) -/

theorem exec_sym_of_not_bypass {s : State} (h : s.ctl.bypass = false) (d : Dibit) (conf : BitVec 8) :
    exec (.sym d conf) s = .next (withControlError s) := by
  show Host.Outcome.next (injectDibit d conf s) = _
  rw [injectDibit, h]
  rfl

theorem exec_sym_of_bypass {s : State} (h : s.ctl.bypass = true) (d : Dibit) (conf : BitVec 8) :
    exec (.sym d conf) s = exec (.dibit d conf) s :=
  congrArg Host.Outcome.next (if_pos h)

theorem exec_losinj_of_not_bypass {s : State} (h : s.ctl.bypass = false) :
    exec .losinj s = .next (withControlError s) := by
  show Host.Outcome.next (injectMarker s) = _
  rw [injectMarker, h]
  rfl

theorem exec_losinj_of_bypass {s : State} (h : s.ctl.bypass = true) :
    exec .losinj s = exec (.losmark .injected) s :=
  congrArg Host.Outcome.next (if_pos h)

/-- Going from `s` to `t` appends tokens to the output trace, and no SYM token among them. -/
def EmitsNoSymbol (s t : State) : Prop := ∃ toks, Emits s t toks ∧ ∀ x ∈ toks, (tokenWord x).kind ≠ 1#4

theorem EmitsNoSymbol.trans {s t u : State} (h : EmitsNoSymbol s t) (h' : EmitsNoSymbol t u) :
    EmitsNoSymbol s u := by
  obtain ⟨xs, hx, hxs⟩ := h
  obtain ⟨ys, hy, hys⟩ := h'
  exact ⟨xs ++ ys, hx.trans hy, fun x hmem => (List.mem_append.1 hmem).elim (hxs x) (hys x)⟩

theorem emitsNoSymbol_of_trace {s t : State} (h : t.io.trace = s.io.trace) : EmitsNoSymbol s t :=
  ⟨[], emits_nil h, fun _ hmem => absurd hmem List.not_mem_nil⟩

theorem emit_emitsNoSymbol {t : Token} (h : tokenKind t ≠ 1#4) (s : State) : EmitsNoSymbol s (emit t s) :=
  ⟨[t], emits_emit t s, fun _ hmem => List.mem_singleton.1 hmem ▸ h⟩

theorem closeFrame_emitsNoSymbol (reason : EndReason) (s : State) : EmitsNoSymbol s (closeFrame reason s) := by
  unfold closeFrame
  split
  · exact emit_emitsNoSymbol (by simp [tokenKind]) s
  · exact emitsNoSymbol_of_trace rfl
  · exact emitsNoSymbol_of_trace rfl

theorem openFrame_emitsNoSymbol (s : State) : EmitsNoSymbol s (openFrame s) := by
  rcases openFrame_cases s with ⟨-, h⟩ | ⟨-, h⟩ <;> rw [h]
  · exact emit_emitsNoSymbol (by simp [tokenKind]) s
  · exact emitsNoSymbol_of_trace rfl

/-- NIDDEC announces with HDR, END and DECERR only. -/
theorem nidDecode_emitsNoSymbol (s : State) : EmitsNoSymbol s (nidDecode s) := by
  rcases nidDecode_cases s with ⟨c, -, h⟩ | ⟨-, h⟩ <;> rw [h]
  · exact (emit_emitsNoSymbol (t := headerToken c (popcount (nidCode s.fsync.nidacc ^^^ c)) s)
      (by simp [tokenKind, headerToken]) s).trans
      (openFrame_emitsNoSymbol _)
  · exact emit_emitsNoSymbol (t := .decerr s.fsync.nidacc) (by simp [tokenKind]) s

theorem nidDibit_emitsNoSymbol (d : Dibit) (s : State) : EmitsNoSymbol s (nidDibit d s) := by
  rcases nidDibit_cases d s with ⟨-, h⟩ | ⟨-, -, h⟩ | ⟨-, -, h⟩ <;> rw [h]
  · exact emitsNoSymbol_of_trace rfl
  · exact nidDecode_emitsNoSymbol (collectDibit d (advancePos s))
  · exact emitsNoSymbol_of_trace rfl

theorem payloadDibit_emitsNoSymbol (d : Dibit) (conf : BitVec 8) (s : State) :
    EmitsNoSymbol s (payloadDibit d conf s) := by
  have hpay : EmitsNoSymbol s (advancePos (emit (payToken d conf s.fsync) s)) :=
    emit_emitsNoSymbol (t := payToken d conf s.fsync) (by simp [tokenKind, payToken]) s
  rcases payloadDibit_cases d conf s with ⟨-, h⟩ | ⟨-, h⟩ <;> rw [h]
  · exact hpay.trans (emit_emitsNoSymbol (by simp [tokenKind]) _)
  · exact hpay

/-- DIBIT forwards its dibit in PAY tokens; a SYM token is DEMOD's alone (rules R141 and R223). -/
theorem takeDibit_emitsNoSymbol (d : Dibit) (conf : BitVec 8) (s : State) :
    EmitsNoSymbol s (takeDibit d conf s) := by
  suffices EmitsNoSymbol (shiftWindow d s) (takeDibit d conf s) from this
  rcases takeDibit_cases d conf s with ⟨-, h⟩ | ⟨-, -, h⟩ | ⟨-, -, h⟩ | ⟨-, -, h⟩ <;> rw [h]
  · exact closeFrame_emitsNoSymbol .resync (shiftWindow d s)
  · exact emitsNoSymbol_of_trace (searchDibit_trace _)
  · exact nidDibit_emitsNoSymbol d _
  · exact payloadDibit_emitsNoSymbol d conf _

/-- Settles O45: BYPASS alone decides between the sub-operation and the control error; a write of SYMIN is one of
the two injections. -/
theorem injectionNeedsBypassAndBypassesDemod : Obligations.InjectionNeedsBypassAndBypassesDemod := by
  intro d conf s
  refine ⟨fun h => ⟨exec_sym_of_not_bypass h d conf, exec_losinj_of_not_bypass h⟩, fun h => ⟨?sym, ?losinj⟩,
    fun v => ⟨fun h => ?refused, fun h h8 => ?marker, fun h h8 => ?dibit⟩⟩
  case sym =>
    obtain ⟨toks, hemits, hkinds⟩ := takeDibit_emitsNoSymbol d conf s
    exact ⟨takeDibit d conf s, toks, exec_sym_of_bypass h d conf, rfl, (takeDibit_frame d conf s).demod, hemits,
      hkinds⟩
  case losinj =>
    exact ⟨losMark .injected s, exec_losinj_of_bypass h, rfl, (losMark_frame .injected s).demod⟩
  case refused => exact exec_csrw_of_writeError (.inr (.inr (.inr (.inr ⟨rfl, h⟩))))
  case marker => rw [exec_csrw_symin, if_pos h8, exec_losinj_of_bypass h]
  case dibit => rw [exec_csrw_symin, h8, if_neg Bool.false_ne_true, exec_sym_of_bypass h]

end Sys2Proof.Machine

namespace Sys2Proof.Machine

/-! ### What an operation does to the sticky bits (O37, O39) -/

/-- From `s` to `t` sticky bits are set, CTLERR_EVT not among them, and none is cleared. -/
def SetsDatapathEvents (s t : State) : Prop := ∃ m : BitVec 5, m.getLsbD 4 = false ∧ t.evt = s.evt ||| m

theorem setsDatapathEvents_of_evt {s t : State} (h : t.evt = s.evt) : SetsDatapathEvents s t :=
  ⟨0#5, rfl, by rw [h, BitVec.or_zero]⟩

theorem SetsDatapathEvents.trans {s t u : State} (h : SetsDatapathEvents s t) (h' : SetsDatapathEvents t u) :
    SetsDatapathEvents s u := by
  obtain ⟨m, hm, ht⟩ := h
  obtain ⟨n, hn, hu⟩ := h'
  exact ⟨m ||| n, by rw [BitVec.getLsbD_or, hm, hn, Bool.or_false], by rw [hu, ht, BitVec.or_assoc]⟩

theorem SetsDatapathEvents.ctlerr {s t : State} (h : SetsDatapathEvents s t) :
    t.evt.getLsbD 4 = s.evt.getLsbD 4 := by
  obtain ⟨m, hm, ht⟩ := h
  rw [ht, BitVec.getLsbD_or, hm, Bool.or_false]

/-- A sticky bit stays set where others are set beside it. -/
theorem getLsbD_or_of_left {w j : Nat} {x : BitVec w} (h : x.getLsbD j = true) (m : BitVec w) :
    (x ||| m).getLsbD j = true := by
  rw [BitVec.getLsbD_or, h, Bool.true_or]

theorem nidDecode_setsDatapathEvents (s : State) : SetsDatapathEvents s (nidDecode s) := by
  rcases nidDecode_cases s with ⟨c, -, h⟩ | ⟨-, h⟩ <;> rw [h]
  · exact ⟨0b00100#5, rfl, acceptNid_evt c _ (latchNid s)⟩
  · exact ⟨0b00010#5, rfl, rfl⟩

theorem searchDibit_setsDatapathEvents (s : State) : SetsDatapathEvents s (searchDibit s) := by
  rcases searchDibit_cases s with ⟨-, h⟩ | ⟨-, -, h⟩ | ⟨-, -, h⟩ <;> rw [h]
  · exact setsDatapathEvents_of_evt rfl
  · exact ⟨0b01000#5, rfl, rfl⟩
  · exact setsDatapathEvents_of_evt rfl

theorem nidDibit_setsDatapathEvents (d : Dibit) (s : State) : SetsDatapathEvents s (nidDibit d s) := by
  rcases nidDibit_cases d s with ⟨-, h⟩ | ⟨-, -, h⟩ | ⟨-, -, h⟩ <;> rw [h]
  · exact setsDatapathEvents_of_evt rfl
  · exact nidDecode_setsDatapathEvents (collectDibit d (advancePos s))
  · exact setsDatapathEvents_of_evt rfl

theorem takeDibit_setsDatapathEvents (d : Dibit) (conf : BitVec 8) (s : State) :
    SetsDatapathEvents s (takeDibit d conf s) := by
  suffices SetsDatapathEvents (shiftWindow d s) (takeDibit d conf s) from this
  rcases takeDibit_cases d conf s with ⟨-, h⟩ | ⟨-, -, h⟩ | ⟨-, -, h⟩ | ⟨-, -, h⟩ <;> rw [h]
  · exact setsDatapathEvents_of_evt (startCandidate_evt _ _)
  · exact searchDibit_setsDatapathEvents _
  · exact nidDibit_setsDatapathEvents d _
  · exact setsDatapathEvents_of_evt (payloadDibit_keeps d conf _).2

theorem losMark_setsDatapathEvents (cause : LosCause) (s : State) : SetsDatapathEvents s (losMark cause s) :=
  ⟨0b00001#5, rfl, losMark_evt cause s⟩

theorem loseLock_setsDatapathEvents (cause : LosCause) (s : State) : SetsDatapathEvents s (loseLock cause s) :=
  losMark_setsDatapathEvents cause { s with demod := { s.demod with locked := false, acqcnt := 0#10 } }

theorem outputSymbol_setsDatapathEvents (d : Dibit) (conf : BitVec 8) (s : State) :
    SetsDatapathEvents s (outputSymbol d conf s) :=
  (setsDatapathEvents_of_evt (tapSymbol_keeps d conf s).2.2).trans (takeDibit_setsDatapathEvents d conf _)

theorem takeStrobe_setsDatapathEvents (sig : Bool) (s : State) : SetsDatapathEvents s (takeStrobe sig s) := by
  suffices SetsDatapathEvents (strobeLoops s) (takeStrobe sig s) from this
  rcases takeStrobe_cases sig s with ⟨-, h⟩ | ⟨-, -, h⟩ | ⟨-, -, -, h⟩ | ⟨-, -, -, h⟩ <;> rw [h]
  · exact setsDatapathEvents_of_evt (acquire_evt sig _)
  · exact loseLock_setsDatapathEvents .energy _
  · exact loseLock_setsDatapathEvents .timing _
  · exact outputSymbol_setsDatapathEvents _ _ (fineTrack (slicerError (softValue s)) (strobeLoops s))

theorem takeSample_setsDatapathEvents (i q : Component) (s : State) : SetsDatapathEvents s (takeSample i q s) := by
  have hfront : (frontEnd i q (countSample s)).evt = s.evt := frontEnd_evt i q (countSample s)
  rcases takeSample_cases i q s with ⟨-, h⟩ | ⟨-, -, -, h⟩ | ⟨-, -, -, h⟩ <;> rw [h]
  · exact setsDatapathEvents_of_evt rfl
  · exact setsDatapathEvents_of_evt hfront
  · exact (setsDatapathEvents_of_evt hfront).trans (takeStrobe_setsDatapathEvents _ _)

/-- The control errors in state `s`: the list of rule R218, where case (f) is also SYM and LOSINJ (rule R223). -/
def IsControlError (s : State) (i : Instr) : Prop :=
  (∃ b, Unmapped b ∧ i = .csrr b) ∨ (∃ b w, WriteError b w s ∧ i = .csrw b w) ∨
    (s.ctl.bypass = false ∧ (i = .losinj ∨ ∃ d conf, i = .sym d conf))

/-- The operations that can clear a sticky bit: the resets, a write of STATUS, and CSRW of CMD or STATUS. -/
inductive MayClearEvents : Instr → Prop
  | rst : MayClearEvents .rst
  | srst : MayClearEvents .srst
  | statusw1c (clr : BitVec 5) : MayClearEvents (.statusw1c clr)
  | csrwCmd (v : Word32) : MayClearEvents (.csrw 0x02#8 v)
  | csrwStatus (v : Word32) : MayClearEvents (.csrw 0x03#8 v)

/-- What an operation does to the sticky bits: events of the datapath, a control error, or clearing. -/
inductive EventEffect (i : Instr) (s t : State) : Prop
  | sets (hset : SetsDatapathEvents s t)
  | refused (herror : IsControlError s i) (hevt : t.evt = s.evt ||| 0b10000#5)
  | clears (hmay : MayClearEvents i) (hevt : ∃ m, t.evt = s.evt &&& m)

/-- FLUSH and CLRCNT keep the sticky bits, and so does a CMD word that is no SRST (rules R219 to R222). -/
theorem writeCmd_evt (v : Word32) (s : State) : ∃ m, (writeCmd v s).evt = s.evt &&& m := by
  unfold writeCmd
  split
  · exact ⟨0#5, (BitVec.and_zero).symm⟩
  · refine ⟨BitVec.allOnes 5, ?_⟩
    rw [BitVec.and_allOnes]
    cases v.getLsbD 0 <;> cases v.getLsbD 1 <;> simp

theorem injectDibit_effect (d : Dibit) (conf : BitVec 8) (s : State) :
    EventEffect (.sym d conf) s (injectDibit d conf s) := by
  unfold injectDibit
  split
  · exact .sets (takeDibit_setsDatapathEvents d conf s)
  · next h => exact .refused (.inr (.inr ⟨by simpa using h, .inr ⟨d, conf, rfl⟩⟩)) rfl

theorem injectMarker_effect (s : State) : EventEffect .losinj s (injectMarker s) := by
  unfold injectMarker
  split
  · exact .sets (losMark_setsDatapathEvents .injected s)
  · next h => exact .refused (.inr (.inr ⟨by simpa using h, .inl rfl⟩)) rfl

theorem readPort_effect (a : RegNum) (s : State) : EventEffect (.csrr a) s (readPort a s) := by
  cases h : csrOf a with
  | none =>
    have hu := (csrOf_eq_none_iff a).1 h
    rw [readPort_of_unmapped hu]
    exact .refused (.inl ⟨a, hu, rfl⟩) rfl
  | some r =>
    rw [readPort_of_csrOf_some h]
    exact .sets (setsDatapathEvents_of_evt rfl)

/-- A write of SYMIN with BYPASS sets events of the datapath only (rule R223). -/
theorem writeSymin_setsDatapathEvents {s : State} (h : s.ctl.bypass = true) (v : Word32) :
    SetsDatapathEvents s (writeSymin v s) := by
  unfold writeSymin injectMarker injectDibit
  rw [if_pos h, if_pos h]
  split
  · exact losMark_setsDatapathEvents .injected s
  · exact takeDibit_setsDatapathEvents _ _ s

/-- A write that is not refused sets no sticky bit but those of an injection, and clears by CMD and STATUS only. -/
theorem writeCsr_evt_of_not_refused {r : Csr} {v : Word32} {s : State} (h : ¬ RefusedWrite v s r) :
    SetsDatapathEvents s (writeCsr r v s) ∨
      ((r = .cmd ∨ r = .status) ∧ ∃ m, (writeCsr r v s).evt = s.evt &&& m) := by
  cases r with
  | cmd => exact .inr ⟨.inl rfl, writeCmd_evt v s⟩
  | status => exact .inr ⟨.inr rfl, _, rfl⟩
  | sps =>
    rw [writeCsr, if_pos (by simpa [RefusedWrite] using h)]
    exact .inl (setsDatapathEvents_of_evt rfl)
  | nidcfg =>
    rw [writeCsr, if_pos (by simpa [RefusedWrite] using h)]
    exact .inl (setsDatapathEvents_of_evt rfl)
  | symin => exact .inl (writeSymin_setsDatapathEvents (by simpa [RefusedWrite] using h) v)
  | id | decerrcnt | framecnt | loscnt | synccnt | tsamp | foff | energy | lastnidl | lastnidh | eyeavg
  | fpos => exact absurd trivial h
  | _ => exact .inl (setsDatapathEvents_of_evt rfl)

theorem exec_csrw_effect {a : RegNum} {v : Word32} {s t : State} (h : exec (.csrw a v) s = .next t) :
    EventEffect (.csrw a v) s t := by
  by_cases hw : WriteError a v s
  · cases h.symm.trans (exec_csrw_of_writeError hw)
    exact .refused (.inr (.inl ⟨a, v, hw, rfl⟩)) rfl
  · obtain ⟨r, hr⟩ : ∃ r, csrOf a = some r :=
      Option.ne_none_iff_exists'.1 fun hn => hw (.inl ((csrOf_eq_none_iff a).1 hn))
    cases h.symm.trans (exec_csrw_of_csrOf hr v s)
    rcases writeCsr_evt_of_not_refused (mt (writeError_iff_of_csrOf hr v s).2 hw) with hset | ⟨rfl | rfl, hclr⟩
    · exact .sets hset
    · obtain rfl : 0x02#8 = a := csrNumber_of_csrOf hr
      exact .clears (.csrwCmd v) hclr
    · obtain rfl : 0x03#8 = a := csrNumber_of_csrOf hr
      exact .clears (.csrwStatus v) hclr

/-- Everything an operation can do to the sticky bits (rules R218 and R224). -/
theorem exec_eventEffect {i : Instr} {s t : State} (h : exec i s = .next t) : EventEffect i s t := by
  cases i with
  | rst => cases h; exact .clears .rst ⟨0#5, BitVec.and_zero.symm⟩
  | srst => cases h; exact .clears .srst ⟨0#5, BitVec.and_zero.symm⟩
  | statusw1c clr => cases h; exact .clears (.statusw1c clr) ⟨_, rfl⟩
  | csrr a => cases h; exact readPort_effect a s
  | csrw a v => exact exec_csrw_effect h
  | sym d conf => cases h; exact injectDibit_effect d conf s
  | losinj => cases h; exact injectMarker_effect s
  | flush thenClr => cases h; exact .sets (setsDatapathEvents_of_evt (by split <;> simp))
  | clrcnt => cases h; exact .sets (setsDatapathEvents_of_evt rfl)
  | sample x y => cases h; exact .sets (takeSample_setsDatapathEvents x y s)
  | strobe sig => cases h; exact .sets (takeStrobe_setsDatapathEvents sig s)
  | unlock cause => cases h; exact .sets (loseLock_setsDatapathEvents cause s)
  | dibit d conf => cases h; exact .sets (takeDibit_setsDatapathEvents d conf s)
  | losmark cause => cases h; exact .sets (losMark_setsDatapathEvents cause s)
  | niddec => cases h; exact .sets (nidDecode_setsDatapathEvents s)

/-! ### Control errors (O37) -/

/-- CTLERR_EVT is set after an operation only where it was set before or the operation is a control error. -/
theorem ctlerr_or_isControlError {i : Instr} {s t : State} (h : exec i s = .next t)
    (ht : t.evt.getLsbD 4 = true) : s.evt.getLsbD 4 = true ∨ IsControlError s i := by
  rcases exec_eventEffect h with hset | ⟨herr, -⟩ | ⟨-, ⟨m, hm⟩⟩
  · exact .inl (hset.ctlerr ▸ ht)
  · exact .inr herr
  · rw [hm, BitVec.getLsbD_and, Bool.and_eq_true] at ht
    exact .inl ht.1

/-- Settles O37: the refused accesses are computed, and no other operation sets CTLERR_EVT. -/
theorem controlErrorsAreExactlyTheListedOnes : Obligations.ControlErrorsAreExactlyTheListedOnes := by
  intro a v s
  refine ⟨fun hu => congrArg _ (readPort_of_unmapped hu s), exec_csrw_of_writeError,
    fun h => ⟨exec_losinj_of_not_bypass h, exec_sym_of_not_bypass h⟩, fun hm t ht => ?read, fun hw t ht hc => ?write,
    fun h t ht => ?losinj, fun h d conf t ht => ?sym, fun clr t ht hc => ?status,
    fun i t => ctlerr_or_isControlError⟩
  case read =>
    obtain ⟨r, hr⟩ := Option.ne_none_iff_exists'.1 (mt (csrOf_eq_none_iff a).1 hm)
    cases ht.symm.trans (congrArg Host.Outcome.next (readPort_of_csrOf_some hr s))
    rfl
  case write =>
    refine (ctlerr_or_isControlError ht hc).resolve_right ?_
    rintro (⟨b, -, hi⟩ | ⟨b, w, hbw, hi⟩ | ⟨-, hi | ⟨d, conf, hi⟩⟩) <;> cases hi
    exact hw hbw
  case losinj =>
    cases ht.symm.trans (exec_losinj_of_bypass h)
    exact (losMark_setsDatapathEvents .injected s).ctlerr
  case sym =>
    cases ht.symm.trans (exec_sym_of_bypass h d conf)
    exact (takeDibit_setsDatapathEvents d conf s).ctlerr
  case status =>
    refine (ctlerr_or_isControlError ht hc).resolve_right ?_
    rintro (⟨b, -, hi⟩ | ⟨b, w, -, hi⟩ | ⟨-, hi | ⟨d, conf, hi⟩⟩) <;> cases hi

/-! ### Writes of STATUS (O39) -/

/-- Writing 1 clears exactly the named bits (rule R224). -/
theorem clearEvents_evt_getLsbD (clr : BitVec 5) (s : State) {i : Nat} (hi : i < 5) :
    (clearEvents clr s).evt.getLsbD i = (s.evt.getLsbD i && !clr.getLsbD i) := by
  rw [clearEvents_evt, BitVec.getLsbD_and, BitVec.getLsbD_not, decide_eq_true hi, Bool.true_and]

/-- A write transaction carries its register number and its data word at their places (rule R92). -/
theorem transactionWord_fields (we : Bool) (a : RegNum) (v : Word32) :
    (transactionWord we a v).extractLsb' 32 8 = a ∧ (transactionWord we a v).extractLsb' 0 32 = v := by
  have hnum : (transactionWord we a v).toNat = 2 ^ 40 * we.toNat + 2 ^ 32 * a.toNat + v.toNat := by
    rw [transactionWord, BitVec.toNat_setWidth_of_le (by decide)]
    simp only [toNat_append_eq_add, BitVec.toNat_ofBool]
    omega
  have ha := a.isLt
  have hv := v.isLt
  constructor
  · apply BitVec.eq_of_toNat_eq
    rw [BitVec.extractLsb'_toNat, Nat.shiftRight_eq_div_pow, hnum]
    omega
  · apply BitVec.eq_of_toNat_eq
    rw [BitVec.extractLsb'_toNat, Nat.shiftRight_zero, hnum]
    omega

theorem decode_writeEvent (a : RegNum) (v : Word32) : decode (writeEvent a v) = decodeWrite a v := by
  obtain ⟨hnum, hdata⟩ := transactionWord_fields true a v
  show decodeTransaction (transactionWord true a v) = _
  rw [decodeTransaction, transactionWord_we, if_pos rfl, hnum, hdata]

/-- The step that takes a write of STATUS clears the bits named in 12:8 of its data word. -/
theorem step_of_status_write {v : Word32} {s : State} {rest : List InEvent}
    (h : s.io.script = writeEvent 0x03#8 v :: rest) :
    step s = .next (clearEvents (v.extractLsb' 8 5) { s with io := { s.io with script := rest } }) := by
  rcases step_cases s with ⟨hnil, -⟩ | ⟨ev, rest', hev, hstep⟩
  · simp [h] at hnil
  · obtain ⟨rfl, rfl⟩ := List.cons.inj (h.symm.trans hev)
    rw [hstep, decode_writeEvent]
    rfl

/-- Settles O39: write-1-to-clear bit by bit, through the port too, and every other operation but a reset only sets
sticky bits. -/
theorem statusWriteClearsExactlyTheNamedBits : Obligations.StatusWriteClearsExactlyTheNamedBits := by
  refine ⟨fun clr s => ⟨clearEvents clr s, rfl, fun i hi => clearEvents_evt_getLsbD clr s hi, rfl⟩,
    fun v s rest h => ⟨_, step_of_status_write h, fun i hi => ?port, rfl⟩,
    fun i s t h hrst hsrst hstatus hcsrw j _ hj => ?keeps⟩
  case port =>
    rw [clearEvents_evt_getLsbD _ _ hi, BitVec.getLsbD_extractLsb', decide_eq_true hi, Bool.true_and]
  case keeps =>
    rcases exec_eventEffect h with ⟨m, -, hm⟩ | ⟨-, hm⟩ | ⟨hclears, -⟩
    · rw [hm]
      exact getLsbD_or_of_left hj m
    · rw [hm]
      exact getLsbD_or_of_left hj _
    · cases hclears with
      | rst => exact absurd rfl hrst
      | srst => exact absurd rfl hsrst
      | statusw1c clr => exact absurd rfl (hstatus clr)
      | csrwCmd v => exact absurd rfl (hcsrw v).1
      | csrwStatus v => exact absurd rfl (hcsrw v).2

end Sys2Proof.Machine

namespace Sys2Proof.Machine

/-! ### The two resets (O40, O41) -/

theorem exec_rst (s : State) : exec .rst s = .next (resetBlock s) := rfl

theorem exec_srst (s : State) : exec .srst s = .next (resetBlock s) := rfl

/-- Both resets are the one block of 10_state.md rule R66 (rule R271). -/
theorem exec_srst_eq_exec_rst (s : State) : exec .srst s = exec .rst s :=
  (exec_srst s).trans (exec_rst s).symm

theorem irq_eq_false_of_evt_eq_zero {s : State} (h : s.evt = 0#5) : irq s = false := by
  rw [irq, h, BitVec.zero_and, bne_self_eq_false]

theorem toList_reset_dl : Demod.reset.dl.toList = List.replicate 48 0#18 :=
  Vector.toList_replicate

/-- Settles O40: the irq line and the delay line by their lemmas, every other element from the reset columns, which
`resetBlock` installs unit by unit. -/
theorem rstGivesEveryElementItsResetValue : Obligations.RstGivesEveryElementItsResetValue := by
  intro s
  refine ⟨resetBlock s, exec_rst s, resetBlock_io s, irq_eq_false_of_evt_eq_zero (resetBlock_evt s), rfl, ?_⟩
  rw [resetBlock_demod, resetBlock_fsync, resetBlock_nid, resetBlock_evt, resetBlock_ctl, toList_reset_dl]
  and_intros <;> rfl

/-- Settles O41: the software reset is the same block as the reset input, and the block keeps the ports. -/
theorem srstIsRst : Obligations.SrstIsRst := by
  intro s
  refine ⟨exec_srst_eq_exec_rst s, resetBlock s, exec_srst s, ?_, resetBlock_io s⟩
  rw [resetBlock_demod, Demod.reset]

end Sys2Proof.Machine

namespace Sys2Proof.Machine

/-! ### Decoding undoes encoding (O1) -/

/-- A word with its two halves side by side is the sample it was made of (rule R91). -/
theorem decodeSample_append (i q : Component) : decodeSample (q ++ i) = .sample i q := by
  have hi : (q ++ i).extractLsb' 0 16 = i := BitVec.extractLsb'_append_eq_right
  have hq : (q ++ i).extractLsb' 16 16 = q := BitVec.extractLsb'_append_eq_left
  rw [decodeSample, hi, hq]

/-- A read transaction carries its register number (rule R92). -/
theorem decode_read (a : RegNum) (v : Word32) : decode (.transaction (transactionWord false a v)) = .csrr a := by
  show decodeTransaction (transactionWord false a v) = _
  rw [decodeTransaction, transactionWord_we, if_neg Bool.false_ne_true, (transactionWord_fields false a v).1]

/-- A CMD word commands nothing where its three command bits are 0 (rule R94). -/
theorem isNoCommand_iff (v : Word32) :
    isNoCommand v = true ↔ ¬ v.getLsbD 31 = true ∧ ¬ v.getLsbD 0 = true ∧ ¬ v.getLsbD 1 = true := by
  simp only [isNoCommand, Bool.and_eq_true, Bool.not_eq_true', Bool.not_eq_true, and_assoc]
  exact and_congr_right fun _ => and_comm

theorem decodeCmd_of_isNoCommand {v : Word32} (h : isNoCommand v = true) : decodeCmd v = .csrw 0x02#8 v := by
  obtain ⟨h31, h0, h1⟩ := (isNoCommand_iff v).1 h
  rw [decodeCmd, if_neg h31, if_neg h0, if_neg h1]

/-- A plain write is decoded no further (rule R93). -/
theorem decodeWrite_of_isPlainWrite {a : RegNum} {v : Word32} (h : isPlainWrite a v = true) :
    decodeWrite a v = .csrw a v := by
  simp only [isPlainWrite, Bool.and_eq_true, Bool.or_eq_true, bne_iff_ne] at h
  obtain ⟨⟨hcmd, hstatus⟩, hsymin⟩ := h
  by_cases ha : a = 0x02#8
  · subst ha
    exact decodeCmd_of_isNoCommand (hcmd.resolve_left (absurd rfl))
  · rw [decodeWrite, if_neg ha, if_neg hstatus, if_neg hsymin]

/-- The STATUS word carries its bits at 12:8 (rule R224). -/
theorem statusWord_field (clr : BitVec 5) : (statusWord clr).extractLsb' 8 5 = clr := by
  revert clr
  decide

theorem toNat_syminWord (d : Dibit) (conf : BitVec 8) :
    (syminWord d conf).toNat = 2 ^ 16 * conf.toNat + d.toNat := by
  rw [syminWord, BitVec.toNat_setWidth_of_le (by decide)]
  exact toNat_append_zero_append conf d

/-- The SYMIN word of a symbol has bit 8 clear and its two fields at their places (rule R95). -/
theorem decodeSymin_syminWord (d : Dibit) (conf : BitVec 8) : decodeSymin (syminWord d conf) = .sym d conf := by
  have hnum := toNat_syminWord d conf
  have hd := d.isLt
  have hconf := conf.isLt
  have hbit : (syminWord d conf).getLsbD 8 = false := by
    rw [BitVec.getLsbD, Nat.testBit_eq_decide_div_mod_eq, decide_eq_false_iff_not, hnum]
    omega
  have hlow : (syminWord d conf).extractLsb' 0 2 = d := by
    apply BitVec.eq_of_toNat_eq
    rw [BitVec.extractLsb'_toNat, Nat.shiftRight_zero, hnum]
    omega
  have hhigh : (syminWord d conf).extractLsb' 16 8 = conf := by
    apply BitVec.eq_of_toNat_eq
    rw [BitVec.extractLsb'_toNat, Nat.shiftRight_eq_div_pow, hnum]
    omega
  rw [decodeSymin, hbit, if_neg Bool.false_ne_true, hlow, hhigh]

/-- Every encoding is read back, whatever the operands are. -/
theorem decode_of_encode {i : Instr} {ev : InEvent} (hwf : i.wellFormed = true) (h : encode i = some ev) :
    decode ev = i := by
  cases i with
  | rst => cases h; rfl
  | sample x y => cases h; exact decodeSample_append x y
  | csrr a => cases h; exact decode_read a 0#32
  | csrw a v => cases h; exact (decode_writeEvent a v).trans (decodeWrite_of_isPlainWrite hwf)
  | srst => cases h; exact decode_writeEvent _ _
  | flush thenClr => cases h; cases thenClr <;> exact decode_writeEvent _ _
  | clrcnt => cases h; exact decode_writeEvent _ _
  | statusw1c clr =>
    cases h
    exact (decode_writeEvent _ _).trans (congrArg Instr.statusw1c (statusWord_field clr))
  | sym d conf => cases h; exact (decode_writeEvent _ _).trans (decodeSymin_syminWord d conf)
  | losinj => cases h; exact decode_writeEvent _ _
  | strobe | unlock | dibit | losmark | niddec => cases h

/-- Settles O1: a case per operation; the port words carry every field at its place. -/
theorem decodeOfEncodeIsIdentity : Obligations.DecodeOfEncodeIsIdentity :=
  fun _ _ => decode_of_encode

/-! ### Every event decodes to a well-formed operation (O2) -/

/-- The operations that a step can run: well-formed ones that are not internal. -/
def Runnable (i : Instr) : Prop := i.wellFormed = true ∧ i.isEvent = true

theorem decodeCmd_runnable (v : Word32) : Runnable (decodeCmd v) := by
  unfold decodeCmd
  split
  · exact ⟨rfl, rfl⟩
  · split
    · exact ⟨rfl, rfl⟩
    · split
      · exact ⟨rfl, rfl⟩
      · next h31 h0 h1 =>
        have hnone : isNoCommand v = true := (isNoCommand_iff v).2 ⟨h31, h0, h1⟩
        exact ⟨by simp [Instr.wellFormed, isPlainWrite, hnone], rfl⟩

/-- A write is decoded further at the three command registers, and is plain at every other (rule R93). -/
theorem decodeWrite_runnable (a : RegNum) (v : Word32) : Runnable (decodeWrite a v) := by
  unfold decodeWrite
  split
  · exact decodeCmd_runnable v
  · split
    · exact ⟨rfl, rfl⟩
    · split
      · unfold decodeSymin
        split <;> exact ⟨rfl, rfl⟩
      · next hcmd hstatus hsymin => exact ⟨by simp [Instr.wellFormed, isPlainWrite, hcmd, hstatus, hsymin], rfl⟩

theorem decode_runnable (ev : InEvent) : Runnable (decode ev) := by
  cases ev with
  | reset => exact ⟨rfl, rfl⟩
  | sampleWord w => exact ⟨rfl, rfl⟩
  | transaction w =>
    show Runnable (decodeTransaction w)
    unfold decodeTransaction
    split
    · exact decodeWrite_runnable _ _
    · exact ⟨rfl, rfl⟩

/-- Only the internal sub-operations have no encoding (rule R90). -/
theorem exists_encode_of_isEvent {i : Instr} (h : i.isEvent = true) : ∃ ev, encode i = some ev := by
  cases i with
  | strobe | unlock | dibit | losmark | niddec => cases h
  | _ => exact ⟨_, rfl⟩

/-- Settles O2: what an event decodes to has an encoding, and that one decodes back by O1. -/
theorem everyEventDecodesToAWellFormedOperation : Obligations.EveryEventDecodesToAWellFormedOperation := by
  intro ev
  obtain ⟨hwf, hevent⟩ := decode_runnable ev
  obtain ⟨ev', hencode⟩ := exists_encode_of_isEvent hevent
  exact ⟨hwf, hevent, ev', hencode, decode_of_encode hwf hencode⟩

/-! ### Fields of the port words (O56, O3) -/

theorem getLsbD_eq_true_iff {w : Nat} (v : BitVec w) (i : Nat) : v.getLsbD i = true ↔ v.toNat / 2 ^ i % 2 = 1 := by
  rw [BitVec.getLsbD, Nat.testBit_eq_decide_div_mod_eq, decide_eq_true_iff]

/-- A field of a word is the quotient of the word by the weight of its lowest bit. -/
theorem extractLsb'_eq_ofNat {w : Nat} (v : BitVec w) (start len : Nat) :
    v.extractLsb' start len = BitVec.ofNat len (v.toNat / 2 ^ start) := by
  rw [BitVec.extractLsb', Nat.shiftRight_eq_div_pow]

/-- A 16-bit pattern read as a signed number is `wrap16s` of its value (rule R91). -/
theorem toInt_ofNat_eq_wrap16s (n : Nat) : (BitVec.ofNat 16 n).toInt = wrap16s n := by
  rw [wrap16s, BitVec.ofInt_natCast]

/-- The sample word (rule R91). -/
theorem decode_sampleWord (w : BitVec 32) :
    decode (.sampleWord w) = .sample (BitVec.ofNat 16 (w.toNat % 2 ^ 16)) (BitVec.ofNat 16 (w.toNat / 2 ^ 16)) := by
  show decodeSample w = _
  have hlow : BitVec.ofNat 16 (w.toNat / 2 ^ 0) = BitVec.ofNat 16 (w.toNat % 2 ^ 16) := by
    apply BitVec.eq_of_toNat_eq
    rw [BitVec.toNat_ofNat, BitVec.toNat_ofNat, pow_zero, Nat.div_one, Nat.mod_mod]
  rw [decodeSample, extractLsb'_eq_ofNat, extractLsb'_eq_ofNat, hlow]

/-- The transaction word, its fields as numbers (rule R92). -/
theorem decode_transaction (w : BitVec 41) :
    decode (.transaction w) = if 2 ^ 40 ≤ w.toNat then
      decodeWrite (BitVec.ofNat 8 (w.toNat / 2 ^ 32)) (BitVec.ofNat 32 (w.toNat % 2 ^ 32))
      else .csrr (BitVec.ofNat 8 (w.toNat / 2 ^ 32)) := by
  have hwe : w.getLsbD 40 = true ↔ 2 ^ 40 ≤ w.toNat := by
    have hw := w.isLt
    rw [getLsbD_eq_true_iff]
    omega
  have hdata : BitVec.ofNat 32 (w.toNat / 2 ^ 0) = BitVec.ofNat 32 (w.toNat % 2 ^ 32) := by
    apply BitVec.eq_of_toNat_eq
    rw [BitVec.toNat_ofNat, BitVec.toNat_ofNat, pow_zero, Nat.div_one, Nat.mod_mod]
  show decodeTransaction w = _
  simp only [decodeTransaction, hwe, extractLsb'_eq_ofNat, hdata]

/-- The CMD word by its value (rule R94). -/
theorem decodeCmd_eq (v : Word32) : decodeCmd v = if 2 ^ 31 ≤ v.toNat then .srst
    else if v.toNat % 2 = 1 then .flush (decide (v.toNat / 2 % 2 = 1))
    else if v.toNat / 2 % 2 = 1 then .clrcnt else .csrw 0x02#8 v := by
  have h31 : v.getLsbD 31 = true ↔ 2 ^ 31 ≤ v.toNat := by
    have hv := v.isLt
    rw [getLsbD_eq_true_iff]
    omega
  have h0 : v.getLsbD 0 = true ↔ v.toNat % 2 = 1 := by rw [getLsbD_eq_true_iff, pow_zero, Nat.div_one]
  have h1 : v.getLsbD 1 = true ↔ v.toNat / 2 % 2 = 1 := by rw [getLsbD_eq_true_iff, pow_one]
  have hclr : v.getLsbD 1 = decide (v.toNat / 2 % 2 = 1) := by rw [Bool.eq_iff_iff, decide_eq_true_iff, h1]
  simp only [decodeCmd, h31, h0, h1]
  rw [hclr]

/-- The SYMIN word by its value (rule R95). -/
theorem decodeSymin_eq (v : Word32) : decodeSymin v = if v.toNat / 2 ^ 8 % 2 = 1 then .losinj
    else .sym (BitVec.ofNat 2 v.toNat) (BitVec.ofNat 8 (v.toNat / 2 ^ 16)) := by
  simp only [decodeSymin, getLsbD_eq_true_iff, extractLsb'_eq_ofNat, pow_zero, Nat.div_one]

/-- Settles O56: the two ports by the fields of their words, and the three command registers by those of WDATA. -/
theorem eventsDecodeByTheirFields : Obligations.EventsDecodeByTheirFields := by
  refine ⟨rfl, fun w => ⟨_, _, decode_sampleWord w, ?low, ?high, toInt_ofNat_eq_wrap16s _,
    toInt_ofNat_eq_wrap16s _⟩, fun w => ?_⟩
  case low => rw [BitVec.toNat_ofNat, Nat.mod_mod]
  case high =>
    have hw := w.isLt
    rw [BitVec.toNat_ofNat]
    omega
  intro a n v
  have hv : v.toNat = n := (BitVec.toNat_ofNat n 32).trans (Nat.mod_mod _ _)
  refine ⟨fun hread => (decode_transaction w).trans (if_neg (Nat.not_le.2 hread)), fun hwrite => ?_⟩
  have hdecode : decode (.transaction w) = decodeWrite a v := (decode_transaction w).trans (if_pos hwrite)
  refine ⟨fun ha => ?cmd, fun ha => ?status, fun ha => ?symin, fun hcmd hstatus hsymin => ?plain⟩
  case cmd => rw [hdecode, ← hv, ha]; exact decodeCmd_eq v
  case status =>
    rw [hdecode, ← hv, ha]
    exact congrArg Instr.statusw1c (extractLsb'_eq_ofNat v 8 5)
  case symin => rw [hdecode, ← hv, ha]; exact decodeSymin_eq v
  case plain => rw [hdecode, decodeWrite, if_neg hcmd, if_neg hstatus, if_neg hsymin]

/-- Settles O3: words of the vectors and programs of the spec, each decoded by evaluation. -/
theorem wordsOfTheSpecDecode : Obligations.WordsOfTheSpecDecode := by
  and_intros <;> rfl

/-! ### Two tokens with the same word (O4) -/

/-- A port word gives back the KIND and the DATA of its layout. -/
theorem LaidOut.eq_of_tokenWord_eq {t u : Token} {k k' n n' : Nat} (ht : LaidOut t k n) (hu : LaidOut u k' n')
    (h : tokenWord t = tokenWord u) : n = n' := by
  rw [← ht.2, ← hu.2, h]

theorem eq_of_causeCode_toNat_eq {c c' : LosCause} (h : (causeCode c).toNat = (causeCode c').toNat) : c = c' := by
  revert h
  cases c <;> cases c' <;> decide

theorem eq_of_reasonCode_toNat_eq {r r' : EndReason} (h : (reasonCode r).toNat = (reasonCode r').toNat) : r = r' := by
  revert h
  cases r <;> cases r' <;> decide

theorem bool_eq_of_toNat_eq {b b' : Bool} (h : b.toNat = b'.toNat) : b = b' := by
  revert h
  cases b <;> cases b' <;> decide

/-- Two tokens of the same kind whose DATA is the same number have the same fields: each field is a digit of it. -/
theorem tokenWord_injective {t u : Token} (h : tokenWord t = tokenWord u) : t = u := by
  have hkind : tokenKind t = tokenKind u := congrArg OutWord.kind h
  cases t with
  | sym d conf =>
    cases u with
    | sym d' conf' =>
      have hnum := (laidOut_sym d conf).eq_of_tokenWord_eq (laidOut_sym d' conf') h
      obtain rfl : d = d' := BitVec.eq_of_toNat_eq (by omega)
      obtain rfl : conf = conf' := BitVec.eq_of_toNat_eq (by omega)
      rfl
    | _ => simp [tokenKind] at hkind
  | los cause =>
    cases u with
    | los cause' =>
      exact congrArg Token.los (eq_of_causeCode_toNat_eq ((laidOut_los cause).eq_of_tokenWord_eq (laidOut_los cause') h))
    | _ => simp [tokenKind] at hkind
  | hdr tstamp nac duid cls p nerr syncq =>
    cases u with
    | hdr tstamp' nac' duid' cls' p' nerr' syncq' =>
      have hnum := (laidOut_hdr tstamp nac duid cls p nerr syncq).eq_of_tokenWord_eq
        (laidOut_hdr tstamp' nac' duid' cls' p' nerr' syncq') h
      have hp := p.toNat_lt
      have hp' := p'.toNat_lt
      obtain rfl : tstamp = tstamp' := BitVec.eq_of_toNat_eq (by omega)
      obtain rfl : nac = nac' := BitVec.eq_of_toNat_eq (by omega)
      obtain rfl : duid = duid' := BitVec.eq_of_toNat_eq (by omega)
      obtain rfl : cls = cls' := BitVec.eq_of_toNat_eq (by omega)
      obtain rfl : p = p' := bool_eq_of_toNat_eq (by omega)
      obtain rfl : nerr = nerr' := BitVec.eq_of_toNat_eq (by omega)
      obtain rfl : syncq = syncq' := BitVec.eq_of_toNat_eq (by omega)
      rfl
    | _ => simp [tokenKind] at hkind
  | pay d ss conf pos =>
    cases u with
    | pay d' ss' conf' pos' =>
      have hnum := (laidOut_pay d ss conf pos).eq_of_tokenWord_eq (laidOut_pay d' ss' conf' pos') h
      have hss := ss.toNat_lt
      have hss' := ss'.toNat_lt
      obtain rfl : d = d' := BitVec.eq_of_toNat_eq (by omega)
      obtain rfl : ss = ss' := bool_eq_of_toNat_eq (by omega)
      obtain rfl : conf = conf' := BitVec.eq_of_toNat_eq (by omega)
      obtain rfl : pos = pos' := BitVec.eq_of_toNat_eq (by omega)
      rfl
    | _ => simp [tokenKind] at hkind
  | frameEnd reason pos =>
    cases u with
    | frameEnd reason' pos' =>
      have hnum := (laidOut_frameEnd reason pos).eq_of_tokenWord_eq (laidOut_frameEnd reason' pos') h
      obtain rfl : reason = reason' := eq_of_reasonCode_toNat_eq (by omega)
      obtain rfl : pos = pos' := BitVec.eq_of_toNat_eq (by omega)
      rfl
    | _ => simp [tokenKind] at hkind
  | decerr nid =>
    cases u with
    | decerr nid' => exact congrArg Token.decerr (congrArg OutWord.data h)
    | _ => simp [tokenKind] at hkind

/-- Settles O4: the KIND tells the six tokens apart, and DATA is the number of the fields. -/
theorem tokenWordsAreDistinct : Obligations.TokenWordsAreDistinct := fun _ _ => tokenWord_injective

end Sys2Proof.Machine

namespace Sys2Proof.Machine

/-! ### The ranges of DEMOD are kept (O48) -/

/-- The front end keeps the ranges: ENERGY is an average of two values in range, FOFF is clamped, and a corrected
sample is in range because FOFF is (rule R69). -/
theorem frontEnd_legalDemod {i q : Component} {s : State} (h : LegalDemod s.demod) :
    LegalDemod (frontEnd i q (countSample s)).demod := by
  have hfront := frontEnd_by i q s
  have henergy : (frontEnd i q (countSample s)).demod.energy.toNat ≤ 2147483648 := by
    have hold := h.energy
    have havg := average_between (lo := 0) (hi := 2147483648) (old := s.demod.energy.toNat) s.ctl.enshift.toNat
      (by omega) (power_bounds i q)
    have hrule : ((frontEnd i q (countSample s)).demod.energy.toNat : Int) =
        average s.demod.energy.toNat (power i q) s.ctl.enshift.toNat := hfront.energy
    omega
  have hfoff : |(frontEnd i q (countSample s)).demod.foff.toInt| ≤ 8388352 := by
    by_cases hsig : s.ctl.sqthr.toNat ≤ (frontEnd i q (countSample s)).demod.energy.toNat ∧ s.demod.locked = false
    · have hlim := offsetLimit_bounds s.ctl.folim
      unfold offsetLimit at hlim
      rw [hfront.coarse hsig.1 hsig.2, coarseByRule, abs_le]
      have hclamp := clamp_bounds (lo := -((s.ctl.folim.toNat : Int) * 256)) (hi := s.ctl.folim.toNat * 256)
        (v := s.demod.foff.toInt +
          floorShr (differenceByRule i q s * 256 - s.demod.foff.toInt) s.ctl.acq.toNat) (by omega)
      omega
    · rw [hfront.keeps ((not_and_or.1 hsig).imp Nat.not_le.1 (Bool.not_eq_false _).mp)]
      exact h.foff
  refine ⟨henergy, hfoff, ?delay, ?tcnt, ?tacc, ?eyeavg⟩
  case delay =>
    obtain ⟨x, hlist, hx⟩ := hfront.delay
    have hf : -32768 ≤ differenceByRule i q s ∧ differenceByRule i q s ≤ 32767 := by
      rw [← phaseAdvance_arg16]
      exact phaseAdvance_bounds _ _ _
    intro y hy
    rw [hlist] at hy
    rcases List.mem_cons.1 hy with rfl | hold
    · rw [hx]
      exact corrected_bounds hf hfoff
    · exact h.delay y (List.mem_of_mem_take hold)
  case tcnt => simpa using h.tcnt
  case tacc => simpa using h.tacc
  case eyeavg => simpa using h.eyeavg

/-- The symbol period after a strobe is SPS or one off it (rule R136). -/
theorem toNat_strobeLoops_tcnt {s : State} (hsps : 4 ≤ s.ctl.sps.toNat ∧ s.ctl.sps.toNat ≤ 32) :
    ((strobeLoops s).demod.tcnt.toNat : Int) = s.ctl.sps.toNat +
      (timingAdjust (s.demod.tacc.toInt + timingError s.demod.svalid s.demod.sprev (softValue s) (midValue s))
        s.ctl.tthr).1 := by
  have hadj := (timingAdjust_bounds
    (s.demod.tacc.toInt + timingError s.demod.svalid s.demod.sprev (softValue s) (midValue s)) s.ctl.tthr).1
  rw [strobeLoops, updateEye_demod_tcnt, updateTiming_demod_tcnt]
  exact toNat_ofInt_exact (by omega) (by norm_num; omega)

/-- TACC after a strobe is the accumulator of rule R136. -/
theorem toInt_strobeLoops_tacc (s : State) : (strobeLoops s).demod.tacc.toInt =
    (timingAdjust (s.demod.tacc.toInt + timingError s.demod.svalid s.demod.sprev (softValue s) (midValue s))
      s.ctl.tthr).2 :=
  toInt_timingAcc _ _

/-- The slicer error is at most 8192 in magnitude (rule R133). -/
theorem abs_errorAfter_le (s : State) : |errorAfter s| ≤ 8192 := by
  have herr := errorAfter_bounds s
  rw [abs_le]
  omega

theorem strobeLoops_legalDemod {s : State} (h : LegalDemod s.demod) (hc : LegalCtl s.ctl) :
    LegalDemod (strobeLoops s).demod := by
  have hadj := timingAdjust_bounds
    (s.demod.tacc.toInt + timingError s.demod.svalid s.demod.sprev (softValue s) (midValue s)) s.ctl.tthr
  refine ⟨h.energy, h.foff, h.delay, ?tcnt, ?tacc, ?eyeavg⟩
  case tcnt =>
    have htcnt := toNat_strobeLoops_tcnt hc.sps.2
    have hsps := hc.sps.2
    omega
  case tacc =>
    have htthr := tthr_bounds s.ctl.tthr
    rw [toInt_strobeLoops_tacc]
    omega
  case eyeavg =>
    have hold := h.eyeavg
    have heye := strobeLoops_eyeavg s
    have havg := average_between (lo := 0) (hi := 8192) (old := s.demod.eyeavg.toNat) (new := |errorAfter s|)
      s.ctl.eshift.toNat (by omega) ⟨abs_nonneg _, abs_errorAfter_le s⟩
    have hrule : average s.demod.eyeavg.toNat |errorAfter s| s.ctl.eshift.toNat = eyeAfter s := rfl
    omega

theorem fineTrack_legalDemod {s : State} (h : LegalDemod s.demod) (err : Int) :
    LegalDemod (fineTrack err s).demod :=
  ⟨h.energy, (abs_clampOffset _ _).trans (offsetLimit_bounds s.ctl.folim).2, h.delay, h.tcnt, h.tacc, h.eyeavg⟩

/-- Lock and acquisition count have no range of their own. -/
theorem LegalDemod.of_lock {d : Demod} (h : LegalDemod d) (locked : Bool) (acqcnt : BitVec 10) :
    LegalDemod { d with locked := locked, acqcnt := acqcnt } :=
  ⟨h.energy, h.foff, h.delay, h.tcnt, h.tacc, h.eyeavg⟩

theorem acquire_legalDemod {s : State} (h : LegalDemod s.demod) (sig : Bool) :
    LegalDemod (acquire sig s).demod := by
  unfold acquire
  split
  · exact h.of_lock _ _
  · exact h.of_lock s.demod.locked _

/-- Losing lock keeps the estimates of DEMOD (rule R139). -/
theorem loseLock_demod (cause : LosCause) (s : State) :
    (loseLock cause s).demod = { s.demod with locked := false, acqcnt := 0#10 } :=
  (losMark_frame cause _).demod

theorem outputSymbol_frame (d : Dibit) (conf : BitVec 8) (s : State) : FsyncFrame s (outputSymbol d conf s) :=
  (tapSymbol_frame d conf s).trans (takeDibit_frame d conf _)

theorem takeStrobe_legalDemod {s : State} (h : LegalDemod s.demod) (hc : LegalCtl s.ctl) (sig : Bool) :
    LegalDemod (takeStrobe sig s).demod := by
  have hloops := strobeLoops_legalDemod h hc
  rcases takeStrobe_cases sig s with ⟨-, he⟩ | ⟨-, -, he⟩ | ⟨-, -, -, he⟩ | ⟨-, -, -, he⟩ <;> rw [he]
  · exact acquire_legalDemod hloops sig
  · rw [loseLock_demod]
    exact hloops.of_lock _ _
  · rw [loseLock_demod]
    exact hloops.of_lock _ _
  · rw [(outputSymbol_frame _ _ _).demod]
    exact fineTrack_legalDemod hloops _

theorem countSample_legalDemod {s : State} (h : LegalDemod s.demod) : LegalDemod (countSample s).demod :=
  ⟨h.energy, h.foff, h.delay, h.tcnt, h.tacc, h.eyeavg⟩

/-- TCNT counts down to 1 and no further between strobes (rule R125). -/
theorem LegalDemod.countDown {d : Demod} (h : LegalDemod d) {n : BitVec 6} (hn : 1 < n.toNat) (hn' : n.toNat ≤ 33) :
    LegalDemod { d with tcnt := n - 1 } := by
  refine ⟨h.energy, h.foff, h.delay, ?_, h.tacc, h.eyeavg⟩
  have hsub : (n - 1#6).toNat = n.toNat - 1 := BitVec.toNat_sub_of_le (BitVec.le_def.2 hn.le)
  show 1 ≤ (n - 1#6).toNat ∧ (n - 1#6).toNat ≤ 33
  omega

theorem takeSample_legalDemod {s : State} (h : LegalDemod s.demod) (hc : LegalCtl s.ctl) (i q : Component) :
    LegalDemod (takeSample i q s).demod := by
  have hfront : LegalDemod (frontEnd i q (countSample s)).demod := frontEnd_legalDemod h
  rcases takeSample_cases i q s with ⟨-, he⟩ | ⟨-, -, ht, he⟩ | ⟨-, -, -, he⟩ <;> rw [he]
  · exact countSample_legalDemod h
  · exact hfront.countDown ht h.tcnt.2
  · exact takeStrobe_legalDemod hfront (by simpa using hc) _

theorem legalDemod_reset : LegalDemod Demod.reset := by
  refine ⟨by decide, by decide, fun x hx => ?_, by decide, by decide, by decide⟩
  rw [toList_reset_dl] at hx
  rw [List.eq_of_mem_replicate hx]
  decide

theorem flushBlock_legalDemod {s : State} (hc : LegalCtl s.ctl) : LegalDemod (flushBlock s).demod := by
  have h := legalDemod_reset
  have hsps := hc.sps.2
  have htcnt : 1 ≤ s.ctl.sps.toNat ∧ s.ctl.sps.toNat ≤ 33 := by omega
  rw [flushBlock_demod]
  exact ⟨h.energy, h.foff, h.delay, htcnt, h.tacc, h.eyeavg⟩

/-! ### The ranges of FSYNC are kept (O48, O25) -/

theorem isStatusPos_iff (pos : BitVec 12) : isStatusPos pos = true ↔ pos.toNat % 36 = 35 := beq_iff_eq

theorem toNat_succ_pos {pos : BitVec 12} (h : pos.toNat < 4095) : (pos + 1).toNat = pos.toNat + 1 :=
  BitVec.toNat_add_of_lt (y := 1#12) (Nat.succ_lt_succ h)

theorem toNat_succ_nidn {n : BitVec 6} (h : n.toNat ≤ 32) : (n + 1).toNat = n.toNat + 1 :=
  BitVec.toNat_add_of_lt (y := 1#6) (Nat.lt_of_le_of_lt (Nat.succ_le_succ h) (by decide))

/-- In a legal NID state the 32nd NID dibit is the one with index 56 (rule R168). -/
theorem LegalFsync.last_nid_dibit_iff {f : Fsync} (h : LegalFsync f) (hs : f.fstate = .nid) :
    f.nidn + 1 = 32#6 ↔ f.pos = 56#12 := by
  obtain ⟨hlo, hhi, hn⟩ := h.nid hs
  have hsucc := toNat_succ_nidn h.nidn
  have h32 : (32#6).toNat = 32 := rfl
  have h56 : (56#12).toNat = 56 := rfl
  unfold collectedAt at hn
  rw [← BitVec.toNat_inj, ← BitVec.toNat_inj, h32, h56, hsucc]
  split at hn <;> omega

theorem shiftWindow_legalFsync {s : State} (h : LegalFsync s.fsync) (d : Dibit) :
    LegalFsync (shiftWindow d s).fsync :=
  ⟨by rw [toNat_shiftWindow_srv]; omega, h.nidn, h.syncq, h.nid, h.payload, h.srchcnt⟩

/-- A new candidate starts at index 24 with no NID dibit collected (rule R164). -/
theorem startCandidate_legalFsync {s : State} (h : LegalFsync s.fsync) (dist : Nat) :
    LegalFsync (startCandidate dist s).fsync := by
  have hsyncq : (startCandidate dist s).fsync.syncq.toNat ≤ 48 :=
    (toNat_startCandidate_syncq dist s).trans_le (Nat.sub_le _ _)
  have hnid : 24 ≤ (24#12).toNat ∧ (24#12).toNat ≤ 56 ∧ (0#6).toNat = collectedAt (24#12).toNat := by decide
  rw [startCandidate_fsync]
  exact ⟨h.srv, Nat.zero_le _, hsyncq, fun _ => hnid, fun hs => FState.noConfusion hs, fun _ => rfl⟩

/-- SRCHCNT counts in state SEARCH, where no other range depends on it. -/
theorem LegalFsync.of_search {f : Fsync} (h : LegalFsync f) (hs : f.fstate = .search) (n : BitVec 16) :
    LegalFsync { f with srchcnt := n } :=
  ⟨h.srv, h.nidn, h.syncq, h.nid, h.payload, fun hne => absurd hs hne⟩

theorem searchDibit_legalFsync {s : State} (h : LegalFsync s.fsync) (hs : s.fsync.fstate = .search) :
    LegalFsync (searchDibit s).fsync := by
  rcases searchDibit_cases s with ⟨-, he⟩ | ⟨-, -, he⟩ | ⟨-, -, he⟩ <;> rw [he]
  · exact h
  · exact h.of_search hs _
  · exact h.of_search hs _

/-- A state that goes back to SEARCH is bound by the ranges of every state only. -/
theorem LegalFsync.toSearch {f : Fsync} (hsrv : f.srv.toNat ≤ 24) (hnidn : f.nidn.toNat ≤ 32)
    (hsyncq : f.syncq.toNat ≤ 48) (hs : f.fstate = .search) : LegalFsync f :=
  ⟨hsrv, hnidn, hsyncq, fun hnid => by simp [hs] at hnid, fun hpay => by simp [hs] at hpay,
    fun hne => absurd hs hne⟩

/-- Where NIDDEC leaves FSYNC: back in SEARCH, or in PAYLOAD with payload to come (rules R199 and R201). -/
theorem nidDecode_fstate (s : State) :
    (nidDecode s).fsync.fstate = .search ∨
    ((nidDecode s).fsync.fstate = .payload ∧ (nidDecode s).fsync.srchcnt = s.fsync.srchcnt ∧
      s.fsync.pos.toNat < (nidDecode s).fsync.flen.toNat) := by
  rcases nidDecode_cases s with ⟨c, -, h⟩ | ⟨-, h⟩ <;> rw [h]
  · rcases Nat.lt_or_ge s.fsync.pos.toNat (dutEntry (duidOf c) s.ctl).len.toNat with hlt | hle
    · rw [(acceptNid_of_lt_len (s := latchNid s) hlt _).1]
      exact .inr ⟨rfl, rfl, hlt⟩
    · rw [(acceptNid_of_len_le (s := latchNid s) hle _).1]
      exact .inl rfl
  · exact .inl rfl

/-- NIDDEC runs at index 57, so a frame it opens begins there (rule R169). -/
theorem nidDecode_legalFsync {s : State} (hsrv : s.fsync.srv.toNat ≤ 24) (hnidn : s.fsync.nidn.toNat ≤ 32)
    (hsyncq : s.fsync.syncq.toNat ≤ 48) (hpos : 57 ≤ s.fsync.pos.toNat) (hsrch : s.fsync.srchcnt = 0#16) :
    LegalFsync (nidDecode s).fsync := by
  have hf := nidDecode_nidFrame s
  rw [← hf.srv] at hsrv
  rw [← hf.nidn] at hnidn
  rw [← hf.syncq] at hsyncq
  rcases nidDecode_fstate s with hs | ⟨hs, hcnt, hlen⟩
  · exact .toSearch hsrv hnidn hsyncq hs
  · rw [← hf.pos] at hpos hlen
    exact ⟨hsrv, hnidn, hsyncq, fun hnid => by simp [hs] at hnid, fun _ => ⟨hpos, hlen⟩, fun _ => hcnt.trans hsrch⟩

/-- Index 35 carries a status symbol and no NID dibit (rule R111). -/
theorem collectedAt_succ_of_status {p : Nat} (h : p = 35) : collectedAt (p + 1) = collectedAt p := by
  subst h
  decide

theorem collectedAt_succ_of_ne {p : Nat} (hlo : 24 ≤ p) (h : p ≠ 35) : collectedAt (p + 1) = collectedAt p + 1 := by
  unfold collectedAt
  split <;> split <;> omega

theorem collectedAt_le {p : Nat} (h : p ≤ 56) : collectedAt p ≤ 31 := by
  unfold collectedAt
  split <;> omega

theorem nidDibit_legalFsync {s : State} (h : LegalFsync s.fsync) (hs : s.fsync.fstate = .nid) (d : Dibit) :
    LegalFsync (nidDibit d s).fsync := by
  obtain ⟨hlo, hhi, hn⟩ := h.nid hs
  have hbound := collectedAt_le hhi
  have hsrch : s.fsync.srchcnt = 0#16 := h.srchcnt (by simp [hs])
  have hpos : (s.fsync.pos + 1).toNat = s.fsync.pos.toNat + 1 := toNat_succ_pos (by omega)
  have hnidn : (s.fsync.nidn + 1).toNat = s.fsync.nidn.toNat + 1 := toNat_succ_nidn h.nidn
  have hnidn32 : (s.fsync.nidn + 1).toNat ≤ 32 := by omega
  have hlast := h.last_nid_dibit_iff hs
  rcases nidDibit_cases d s with ⟨hstatus, he⟩ | ⟨-, h32, he⟩ | ⟨hdata, h32, he⟩ <;> rw [he]
  case inl =>
    have hstep := collectedAt_succ_of_status (p := s.fsync.pos.toNat)
      (by rw [isStatusPos_iff] at hstatus; omega)
    have hnid : 24 ≤ (s.fsync.pos + 1).toNat ∧ (s.fsync.pos + 1).toNat ≤ 56 ∧
        s.fsync.nidn.toNat = collectedAt (s.fsync.pos + 1).toNat := by
      rw [isStatusPos_iff] at hstatus
      rw [hpos]
      omega
    exact ⟨h.srv, h.nidn, h.syncq, fun _ => hnid, fun hpay => by simp [hs] at hpay, fun _ => hsrch⟩
  case inr.inl =>
    have h56 : s.fsync.pos.toNat = 56 := congrArg BitVec.toNat (hlast.1 h32)
    have h57 : 57 ≤ (s.fsync.pos + 1).toNat := by omega
    exact nidDecode_legalFsync h.srv hnidn32 h.syncq h57 hsrch
  case inr.inr =>
    have h56 : s.fsync.pos.toNat ≠ 56 := fun h56 => h32 (hlast.2 (BitVec.eq_of_toNat_eq h56))
    have h35 : s.fsync.pos.toNat % 36 ≠ 35 := by
      rw [Ne, ← isStatusPos_iff, hdata]
      exact Bool.false_ne_true
    have hstep := collectedAt_succ_of_ne hlo (by omega)
    have hnid : 24 ≤ (s.fsync.pos + 1).toNat ∧ (s.fsync.pos + 1).toNat ≤ 56 ∧
        (s.fsync.nidn + 1).toNat = collectedAt (s.fsync.pos + 1).toNat := by
      rw [hpos]
      omega
    exact ⟨h.srv, hnidn32, h.syncq, fun _ => hnid, fun hpay => by simp [hs] at hpay, fun _ => hsrch⟩

theorem payloadDibit_legalFsync {s : State} (h : LegalFsync s.fsync) (hs : s.fsync.fstate = .payload) (d : Dibit)
    (conf : BitVec 8) : LegalFsync (payloadDibit d conf s).fsync := by
  obtain ⟨hlo, hhi⟩ := h.payload hs
  have hlen := s.fsync.flen.isLt
  have hpos : (s.fsync.pos + 1).toNat = s.fsync.pos.toNat + 1 := toNat_succ_pos (by omega)
  have hnext : 57 ≤ (s.fsync.pos + 1).toNat := by omega
  rcases Nat.lt_or_ge (s.fsync.pos + 1).toNat s.fsync.flen.toNat with hlt | hle
  · rw [(payloadDibit_of_inside hlt d conf).1]
    exact ⟨h.srv, h.nidn, h.syncq, fun hnid => by simp [hs] at hnid, fun _ => ⟨hnext, hlt⟩, h.srchcnt⟩
  · rw [(payloadDibit_of_last hle d conf).1]
    exact .toSearch h.srv h.nidn h.syncq rfl

theorem takeDibit_legalFsync {s : State} (h : LegalFsync s.fsync) (d : Dibit) (conf : BitVec 8) :
    LegalFsync (takeDibit d conf s).fsync := by
  have hshift := shiftWindow_legalFsync h d
  rcases takeDibit_cases d conf s with ⟨-, he⟩ | ⟨-, hs, he⟩ | ⟨-, hs, he⟩ | ⟨-, hs, he⟩ <;> rw [he]
  · exact startCandidate_legalFsync hshift _
  · exact searchDibit_legalFsync hshift hs
  · exact nidDibit_legalFsync hshift hs d
  · exact payloadDibit_legalFsync hshift hs d conf

theorem losMark_legalFsync {s : State} (h : LegalFsync s.fsync) (cause : LosCause) :
    LegalFsync (losMark cause s).fsync := by
  rw [losMark_fsync]
  exact .toSearch (Nat.zero_le _) h.nidn h.syncq rfl

theorem legalFsync_reset : LegalFsync Fsync.reset := .toSearch (by decide) (by decide) (by decide) rfl

theorem loseLock_legalFsync {s : State} (h : LegalFsync s.fsync) (cause : LosCause) :
    LegalFsync (loseLock cause s).fsync :=
  losMark_legalFsync (s := { s with demod := { s.demod with locked := false, acqcnt := 0#10 } }) h cause

/-- STROBE reaches FSYNC through LOSMARK and DIBIT only. -/
theorem takeStrobe_legalFsync {s : State} (h : LegalFsync s.fsync) (sig : Bool) :
    LegalFsync (takeStrobe sig s).fsync := by
  rcases takeStrobe_cases sig s with ⟨-, he⟩ | ⟨-, -, he⟩ | ⟨-, -, -, he⟩ | ⟨-, -, -, he⟩ <;> rw [he]
  · rw [acquire_fsync]
    exact h
  · exact loseLock_legalFsync (s := strobeLoops s) h .energy
  · exact loseLock_legalFsync (s := strobeLoops s) h .timing
  · rw [outputSymbol_eq]
    refine takeDibit_legalFsync ?_ _ _
    rw [(tapSymbol_keeps _ _ _).1]
    exact h

theorem takeSample_legalFsync {s : State} (h : LegalFsync s.fsync) (i q : Component) :
    LegalFsync (takeSample i q s).fsync := by
  have hfront : (frontEnd i q (countSample s)).fsync = s.fsync := frontEnd_fsync i q (countSample s)
  rcases takeSample_cases i q s with ⟨-, he⟩ | ⟨-, -, -, he⟩ | ⟨-, -, -, he⟩ <;> rw [he]
  · exact h
  · exact hfront.symm ▸ h
  · exact takeStrobe_legalFsync (hfront.symm ▸ h) _

/-! ### Every step keeps the state legal (O48) -/

/-- What leaves DEMOD and the configuration alone has only FSYNC to keep legal. -/
theorem FsyncFrame.legal {s t : State} (hf : FsyncFrame s t) (h : Legal s) (hfsync : LegalFsync t.fsync) : Legal t :=
  ⟨hf.demod.symm ▸ h.demod, hfsync, hf.ctl.symm ▸ h.ctl⟩

/-- The ranges say nothing of NIDDEC, the sticky bits and the ports. -/
theorem Legal.of_units {s t : State} (h : Legal s) (hdemod : t.demod = s.demod) (hfsync : t.fsync = s.fsync)
    (hctl : t.ctl = s.ctl) : Legal t :=
  ⟨hdemod.symm ▸ h.demod, hfsync.symm ▸ h.fsync, hctl.symm ▸ h.ctl⟩

theorem Legal.of_ctl {s t : State} (h : Legal s) (hdemod : t.demod = s.demod) (hfsync : t.fsync = s.fsync)
    (hctl : LegalCtl t.ctl) : Legal t :=
  ⟨hdemod.symm ▸ h.demod, hfsync.symm ▸ h.fsync, hctl⟩

theorem takeDibit_legal {s : State} (h : Legal s) (d : Dibit) (conf : BitVec 8) : Legal (takeDibit d conf s) :=
  (takeDibit_frame d conf s).legal h (takeDibit_legalFsync h.fsync d conf)

theorem losMark_legal {s : State} (h : Legal s) (cause : LosCause) : Legal (losMark cause s) :=
  (losMark_frame cause s).legal h (losMark_legalFsync h.fsync cause)

theorem controlError_legal {s : State} (h : Legal s) : Legal (controlError s) := h.of_units rfl rfl rfl

theorem takeSample_ctl (i q : Component) (s : State) : (takeSample i q s).ctl = s.ctl := by
  rcases takeSample_cases i q s with ⟨-, h⟩ | ⟨hen, hby, -⟩ | ⟨hen, hby, -⟩
  · rw [h, countSample_ctl]
  all_goals
    rw [(takeSample_keepsFrontEnd hen hby).ctl]
    simp

theorem takeSample_legal {s : State} (h : Legal s) (i q : Component) : Legal (takeSample i q s) :=
  ⟨takeSample_legalDemod h.demod h.ctl i q, takeSample_legalFsync h.fsync i q, (takeSample_ctl i q s).symm ▸ h.ctl⟩

/-- The reset state is in every range (rule R66). -/
theorem legal_reset : Legal State.reset :=
  ⟨legalDemod_reset, legalFsync_reset, ⟨by decide, by decide⟩⟩

theorem resetBlock_legal (s : State) : Legal (resetBlock s) := legal_reset.of_units rfl rfl rfl

theorem flushBlock_legal {s : State} (h : Legal s) : Legal (flushBlock s) :=
  ⟨flushBlock_legalDemod h.ctl, legalFsync_reset, (flushBlock_ctl s).symm ▸ h.ctl⟩

theorem clearCounters_legal {s : State} (h : Legal s) : Legal (clearCounters s) := h.of_units rfl rfl rfl

theorem injectDibit_legal {s : State} (h : Legal s) (d : Dibit) (conf : BitVec 8) :
    Legal (injectDibit d conf s) := by
  unfold injectDibit
  split
  · exact takeDibit_legal h d conf
  · exact controlError_legal h

theorem injectMarker_legal {s : State} (h : Legal s) : Legal (injectMarker s) := by
  unfold injectMarker
  split
  · exact losMark_legal h .injected
  · exact controlError_legal h

theorem writeCmd_legal {s : State} (h : Legal s) (v : Word32) : Legal (writeCmd v s) := by
  have hflush : Legal (if v.getLsbD 0 then flushBlock s else s) := by
    split
    · exact flushBlock_legal h
    · exact h
  unfold writeCmd
  split
  · exact resetBlock_legal s
  · dsimp only
    split
    · exact clearCounters_legal hflush
    · exact hflush

/-- A register write keeps the ranges: SPS and NIDT refuse illegal values (rules R49 and R60). -/
theorem writeCsr_legal {s : State} (h : Legal s) (r : Csr) (v : Word32) : Legal (writeCsr r v s) := by
  cases r with
  | cmd => exact writeCmd_legal h v
  | symin =>
    simp only [writeCsr, writeSymin]
    split
    · exact injectMarker_legal h
    · exact injectDibit_legal h _ _
  | sps =>
    simp only [writeCsr]
    split
    · next hlegal =>
      simp only [legalSps, Bool.and_eq_true, beq_iff_eq, decide_eq_true_eq] at hlegal
      obtain ⟨⟨heven, hlo⟩, hhi⟩ := hlegal
      exact h.of_ctl rfl rfl ⟨⟨heven, hlo, hhi⟩, h.ctl.nidt⟩
    · exact controlError_legal h
  | nidcfg =>
    simp only [writeCsr]
    split
    · next hlegal => exact h.of_ctl rfl rfl ⟨h.ctl.sps, of_decide_eq_true hlegal⟩
    · exact controlError_legal h
  | _ => exact h.of_ctl rfl rfl ⟨h.ctl.sps, h.ctl.nidt⟩

theorem writePort_legal {s : State} (h : Legal s) (a : RegNum) (v : Word32) : Legal (writePort a v s) := by
  unfold writePort
  split
  · exact writeCsr_legal h _ v
  · exact controlError_legal h

theorem readPort_legal {s : State} (h : Legal s) (a : RegNum) : Legal (readPort a s) := by
  unfold readPort
  split <;> exact h.of_units rfl rfl rfl

/-- Every operation that an event can be keeps the state legal. -/
theorem exec_legal {i : Instr} {s t : State} (hi : i.isEvent = true) (h : Legal s) (he : exec i s = .next t) :
    Legal t := by
  cases i with
  | rst => cases he; exact resetBlock_legal s
  | srst => cases he; exact resetBlock_legal s
  | sample x y => cases he; exact takeSample_legal h x y
  | csrr a => cases he; exact readPort_legal h a
  | csrw a v => cases he; exact writePort_legal h a v
  | flush thenClr =>
    cases he
    split
    · exact clearCounters_legal (flushBlock_legal h)
    · exact flushBlock_legal h
  | clrcnt => cases he; exact clearCounters_legal h
  | statusw1c clr => cases he; exact h.of_units rfl rfl rfl
  | sym d conf => cases he; exact injectDibit_legal h d conf
  | losinj => cases he; exact injectMarker_legal h
  | strobe | unlock | dibit | losmark | niddec => cases hi

/-- Settles O48: a step runs an operation that an event can be, and each of those keeps every range. -/
theorem stepKeepsLegal : Obligations.StepKeepsLegal := by
  intro s t h hstep
  rcases step_cases s with ⟨-, hidle⟩ | ⟨ev, rest, -, hexec⟩
  · cases hstep.symm.trans hidle
    exact h
  · have htaken : Legal { s with io := { s.io with script := rest } } := h.of_units rfl rfl rfl
    exact exec_legal (decode_runnable ev).2 htaken (hexec.symm.trans hstep)

end Sys2Proof.Machine

namespace Sys2Proof.Machine

/-! ### A dibit without a match in NID (O24, O25) -/

theorem takeDibit_of_nid {d : Dibit} {s : State} (hs : s.fsync.fstate = .nid) (h : ¬ CompletesSync d s)
    (conf : BitVec 8) : takeDibit d conf s = nidDibit d (shiftWindow d s) := by
  rw [takeDibit_of_no_match h, unmatchedDibit, shiftWindow_fsync_fstate, hs]

theorem nidDibit_of_status {s : State} (h : s.fsync.pos.toNat % 36 = 35) (d : Dibit) :
    nidDibit d s = advancePos s :=
  if_pos ((isStatusPos_iff _).2 h)

theorem nidDibit_of_last {s : State} (h : s.fsync.pos.toNat % 36 ≠ 35) (hn : s.fsync.nidn + 1 = 32#6) (d : Dibit) :
    nidDibit d s = nidDecode (collectDibit d (advancePos s)) :=
  (if_neg (mt (isStatusPos_iff _).1 h)).trans (if_pos hn)

theorem nidDibit_of_more {s : State} (h : s.fsync.pos.toNat % 36 ≠ 35) (hn : s.fsync.nidn + 1 ≠ 32#6) (d : Dibit) :
    nidDibit d s = collectDibit d (advancePos s) :=
  (if_neg (mt (isStatusPos_iff _).1 h)).trans (if_neg hn)

/-- The NID shifts left by one dibit (rule R168). -/
theorem toNat_collect (acc : BitVec 64) (d : Dibit) :
    ((acc ++ d).setWidth 64).toNat = (acc.toNat * 4 + d.toNat) % 2 ^ 64 := by
  rw [BitVec.toNat_setWidth, toNat_append_eq_add]
  omega

/-- Settles O24: after the shift the dibit is dropped or collected, and the 32nd hands over to NIDDEC. -/
theorem dibitCollectsTheNid : Obligations.DibitCollectsTheNid := by
  intro d conf s hs h
  refine ⟨takeDibit d conf s, (s.fsync.nidacc ++ d).setWidth 64, rfl, toNat_collect _ d, ?_⟩
  intro f s1
  have hcollect : s1 = collectDibit d (advancePos (shiftWindow d s)) := by
    rw [shiftWindow_eq]
    rfl
  rw [takeDibit_of_nid hs h]
  refine ⟨fun hstatus => ?status, fun hdata hn => ?collect, fun hdata hn => ?decode⟩
  case status =>
    rw [nidDibit_of_status (s := shiftWindow d s) hstatus, shiftWindow_eq]
    rfl
  case collect => rw [nidDibit_of_more (s := shiftWindow d s) hdata hn, hcollect]
  case decode =>
    rw [nidDibit_of_last (s := shiftWindow d s) hdata hn, hcollect]
    rfl

/-- Settles O25: a legal NID state fixes NIDN by POS, and the 32nd dibit moves both on before NIDDEC runs. -/
theorem niddecRunsAtIndex56 : Obligations.NiddecRunsAtIndex56 := by
  intro s h hs hdata
  have hlast := h.fsync.last_nid_dibit_iff hs
  refine ⟨hlast, fun d conf hn hmatch => ?_⟩
  refine ⟨collectDibit d (advancePos (shiftWindow d s)), takeDibit d conf s, rfl, ?_, ?_, hn, hs⟩
  · rw [takeDibit_of_nid hs hmatch, nidDibit_of_last (s := shiftWindow d s) hdata hn]
    rfl
  · show s.fsync.pos + 1 = 57#12
    rw [hlast.1 hn]
    rfl

/-! ### The certain rejections (O30) -/

/-- With one codeword between the radius and `22 - radius` bits away, no codeword is within the radius: another one
would be within 22 bits of it. -/
theorem beyond_radius_of_near_codeword {r : CodeWord} {t : Nat} {m : BitVec 16} (hfar : t < popcount (r ^^^ enc m))
    (hsum : popcount (r ^^^ enc m) + t ≤ 22) (m' : BitVec 16) : t < popcount (r ^^^ enc m') := by
  by_cases hm : m = m'
  · exact hm ▸ hfar
  · have hdist := le_popcount_enc_xor_enc hm
    have htriangle := popcount_xor_triangle r (enc m) (enc m')
    omega

/-- Settles O30: the search answers nothing, so the NID is rejected. -/
theorem niddecRejectsBeyondItsRadius : Obligations.NiddecRejectsBeyondItsRadius := by
  intro s m hfar hsum
  have hreject := nidDecode_of_far (nearest_eq_none (beyond_radius_of_near_codeword hfar hsum))
  exact ⟨rejectNid (latchNid s), congrArg Host.Outcome.next hreject, rfl, rfl, rfl, rfl⟩

/-! ### The grammar of the output trace (O49) -/

theorem scanTokens_append (sc : Scan) (xs ys : List Token) :
    scanTokens sc (xs ++ ys) = (scanTokens sc xs).bind fun sc' => scanTokens sc' ys := by
  induction xs generalizing sc with
  | nil => rfl
  | cons x xs ih =>
    simp only [List.cons_append, scanTokens]
    cases scanToken sc x with
    | none => rfl
    | some sc' => exact ih sc'

theorem frameScan_of_payload {s : State} (h : s.fsync.fstate = .payload) :
    frameScan s = .inside s.fsync.pos.toNat := by
  rw [frameScan, h]

theorem frameScan_of_not_payload {s : State} (h : s.fsync.fstate ≠ .payload) : frameScan s = .outside := by
  unfold frameScan
  cases hs : s.fsync.fstate with
  | payload => exact absurd hs h
  | search | nid => rfl

theorem frameScan_of_search {s : State} (h : s.fsync.fstate = .search) : frameScan s = .outside := by
  rw [frameScan, h]

theorem frameScan_of_fsync {s t : State} (h : t.fsync = s.fsync) : frameScan t = frameScan s := by
  rw [frameScan, frameScan, h]

/-- From `s` to `t` tokens are appended that take the grammar from where it stands in `s` to where it stands in
`t`. -/
def KeepsGrammar (s t : State) : Prop :=
  ∃ toks, Emits s t toks ∧ scanTokens (frameScan s) toks = some (frameScan t)

theorem KeepsGrammar.trans {s t u : State} (h : KeepsGrammar s t) (h' : KeepsGrammar t u) : KeepsGrammar s u := by
  obtain ⟨xs, hx, hxs⟩ := h
  obtain ⟨ys, hy, hys⟩ := h'
  exact ⟨xs ++ ys, hx.trans hy, by rw [scanTokens_append, hxs, Option.bind_some, hys]⟩

theorem KeepsGrammar.wellFormedTrace {s t : State} (h : KeepsGrammar s t) (hs : WellFormedTrace s) :
    WellFormedTrace t := by
  obtain ⟨xs, hx, hxs⟩ := hs
  obtain ⟨ys, hy, hys⟩ := h
  exact ⟨xs ++ ys, by rw [hy, hx, List.map_append], by rw [scanTokens_append, hxs, Option.bind_some, hys]⟩

/-- What emits nothing and stays on the same side of the frame keeps the grammar. -/
theorem keepsGrammar_of_quiet {s t : State} (htrace : t.io.trace = s.io.trace) (hscan : frameScan t = frameScan s) :
    KeepsGrammar s t :=
  ⟨[], emits_nil htrace, by rw [hscan]; rfl⟩

theorem keepsGrammar_of_kept {s t : State} (hio : t.io = s.io) (hfsync : t.fsync = s.fsync) : KeepsGrammar s t :=
  keepsGrammar_of_quiet (congrArg Ports.trace hio) (frameScan_of_fsync hfsync)

/-- An END of any reason but 2 leaves the grammar outside (rule R108). -/
theorem scanTokens_closeTokens {reason : EndReason} (h : reason ≠ .los) (s : State) :
    scanTokens (frameScan s) (closeTokens reason s.fsync) = some .outside := by
  unfold frameScan closeTokens
  cases s.fsync.fstate with
  | search | nid => rfl
  | payload => simp [scanTokens, scanToken, h]

/-- An END with REASON 2 and the LOS after it, or LOS alone, leave the grammar outside (rule R108). -/
theorem scanTokens_closeTokens_los (cause : LosCause) (s : State) :
    scanTokens (frameScan s) (closeTokens .los s.fsync ++ [.los cause]) = some .outside := by
  unfold frameScan closeTokens
  cases s.fsync.fstate with
  | search | nid => rfl
  | payload => simp [scanTokens, scanToken]

/-- SYM tokens may stand everywhere but before the LOS of an END with REASON 2 (rule R108). -/
theorem scanTokens_sym (d : Dibit) (conf : BitVec 8) (s : State) :
    scanTokens (frameScan s) [.sym d conf] = some (frameScan s) := by
  unfold frameScan
  cases s.fsync.fstate <;> rfl

theorem losMark_keepsGrammar (cause : LosCause) (s : State) : KeepsGrammar s (losMark cause s) := by
  refine ⟨_, losMark_emits cause s, ?_⟩
  have hout : frameScan (losMark cause s) = .outside := frameScan_of_search (by rw [losMark_fsync])
  rw [hout, scanTokens_closeTokens_los]

theorem startCandidate_keepsGrammar (dist : Nat) (s : State) : KeepsGrammar s (startCandidate dist s) := by
  refine ⟨_, startCandidate_emits dist s, ?_⟩
  have hout : frameScan (startCandidate dist s) = .outside := rfl
  rw [hout, scanTokens_closeTokens (by decide)]

/-- The search window writes SRCHCNT and the sticky bits only. -/
theorem searchDibit_keepsGrammar (s : State) : KeepsGrammar s (searchDibit s) := by
  refine keepsGrammar_of_quiet (searchDibit_trace s) ?_
  rcases searchDibit_cases s with ⟨-, h⟩ | ⟨-, -, h⟩ | ⟨-, -, h⟩ <;> rw [h] <;> rfl

/-- NIDDEC at index 57 announces a frame whose first payload index is 57, or rejects (rules R198, R199 and R201). -/
theorem nidDecode_keepsGrammar {s : State} (hs : s.fsync.fstate ≠ .payload) (hpos : s.fsync.pos.toNat = 57) :
    KeepsGrammar s (nidDecode s) := by
  have hpos' : (nidDecode s).fsync.pos.toNat = 57 := by rw [(nidDecode_nidFrame s).pos, hpos]
  rcases nidDecode_emits s with ⟨c, -, toks, he, ⟨-, rfl, hf⟩ | ⟨-, rfl, hf⟩⟩ | ⟨-, he, hf⟩
  · refine ⟨_, he, ?_⟩
    rw [frameScan_of_not_payload hs, frameScan_of_search hf]
    simp [scanTokens, scanToken, headerToken, hpos]
  · refine ⟨_, he, ?_⟩
    rw [frameScan_of_not_payload hs, frameScan_of_payload hf, hpos']
    rfl
  · refine ⟨_, he, ?_⟩
    rw [frameScan_of_not_payload hs, frameScan_of_search hf]
    rfl

theorem nidDibit_keepsGrammar {s : State} (h : LegalFsync s.fsync) (hs : s.fsync.fstate = .nid) (d : Dibit) :
    KeepsGrammar s (nidDibit d s) := by
  have hne : s.fsync.fstate ≠ .payload := by rw [hs]; decide
  have hcollect : KeepsGrammar s (collectDibit d (advancePos s)) :=
    keepsGrammar_of_quiet rfl ((frameScan_of_not_payload (s := collectDibit d (advancePos s)) hne).trans
      (frameScan_of_not_payload hne).symm)
  rcases nidDibit_cases d s with ⟨-, he⟩ | ⟨-, h32, he⟩ | ⟨-, -, he⟩ <;> rw [he]
  · exact keepsGrammar_of_quiet rfl ((frameScan_of_not_payload (s := advancePos s) hne).trans
      (frameScan_of_not_payload hne).symm)
  · have h56 : s.fsync.pos = 56#12 := (h.last_nid_dibit_iff hs).1 h32
    have h57 : (collectDibit d (advancePos s)).fsync.pos.toNat = 57 := by
      rw [collectDibit_fsync_pos, advancePos_fsync_pos, h56]
      rfl
    exact hcollect.trans (nidDecode_keepsGrammar hne h57)
  · exact hcollect

/-- A PAY token stands where its index is the next one (rule R108). -/
theorem scanToken_pay (d : Dibit) (ss : Bool) (conf : BitVec 8) (pos : BitVec 12) :
    scanToken (.inside pos.toNat) (.pay d ss conf pos) = some (.inside (pos.toNat + 1)) :=
  if_pos rfl

theorem scanToken_frameEnd_len {n : Nat} {pos : BitVec 12} (h : pos.toNat = n) :
    scanToken (.inside n) (.frameEnd .len pos) = some .outside :=
  if_pos h

/-- PAY carries the index the grammar expects, and so does the END after the last one (rule R169). -/
theorem payloadDibit_keepsGrammar {s : State} (h : LegalFsync s.fsync) (hs : s.fsync.fstate = .payload) (d : Dibit)
    (conf : BitVec 8) : KeepsGrammar s (payloadDibit d conf s) := by
  have hlen := s.fsync.flen.isLt
  have hpos : (s.fsync.pos + 1).toNat = s.fsync.pos.toNat + 1 := toNat_succ_pos (by have := h.payload hs; omega)
  rcases Nat.lt_or_ge (s.fsync.pos + 1).toNat s.fsync.flen.toNat with hlt | hle
  · obtain ⟨hf, he⟩ := payloadDibit_of_inside hlt d conf
    have hin : (payloadDibit d conf s).fsync.fstate = .payload := by rw [hf]; exact hs
    refine ⟨_, he, ?_⟩
    rw [frameScan_of_payload hs, frameScan_of_payload hin, payloadDibit_pos, hpos]
    simp only [scanTokens, payToken, scanToken_pay]
  · obtain ⟨hf, he⟩ := payloadDibit_of_last hle d conf
    have hout : frameScan (payloadDibit d conf s) = .outside := frameScan_of_search (by rw [hf])
    refine ⟨_, he, ?_⟩
    rw [frameScan_of_payload hs, hout]
    simp only [scanTokens, payToken, scanToken_pay, scanToken_frameEnd_len hpos]

theorem takeDibit_keepsGrammar {s : State} (h : LegalFsync s.fsync) (d : Dibit) (conf : BitVec 8) :
    KeepsGrammar s (takeDibit d conf s) := by
  have hshift : KeepsGrammar s (shiftWindow d s) := keepsGrammar_of_quiet rfl rfl
  have hlegal := shiftWindow_legalFsync h d
  rcases takeDibit_cases d conf s with ⟨-, he⟩ | ⟨-, -, he⟩ | ⟨-, hs, he⟩ | ⟨-, hs, he⟩ <;> rw [he]
  · exact hshift.trans (startCandidate_keepsGrammar _ _)
  · exact hshift.trans (searchDibit_keepsGrammar _)
  · exact hshift.trans (nidDibit_keepsGrammar hlegal hs d)
  · exact hshift.trans (payloadDibit_keepsGrammar hlegal hs d conf)

theorem tapSymbol_keepsGrammar (d : Dibit) (conf : BitVec 8) (s : State) :
    KeepsGrammar s (tapSymbol d conf s) := by
  unfold tapSymbol
  split
  · exact ⟨_, emits_emit _ s, scanTokens_sym d conf s⟩
  · exact keepsGrammar_of_kept rfl rfl

theorem loseLock_keepsGrammar (cause : LosCause) (s : State) : KeepsGrammar s (loseLock cause s) :=
  losMark_keepsGrammar cause { s with demod := { s.demod with locked := false, acqcnt := 0#10 } }

theorem takeStrobe_keepsGrammar {s : State} (h : LegalFsync s.fsync) (sig : Bool) :
    KeepsGrammar s (takeStrobe sig s) := by
  have hloops : KeepsGrammar s (strobeLoops s) := keepsGrammar_of_kept rfl rfl
  rcases takeStrobe_cases sig s with ⟨-, he⟩ | ⟨-, -, he⟩ | ⟨-, -, -, he⟩ | ⟨-, -, -, he⟩ <;> rw [he]
  · exact hloops.trans (keepsGrammar_of_kept (acquire_io _ _) (acquire_fsync _ _))
  · exact hloops.trans (loseLock_keepsGrammar _ _)
  · exact hloops.trans (loseLock_keepsGrammar _ _)
  · set tracked := fineTrack (slicerError (softValue s)) (strobeLoops s)
    have htrack : KeepsGrammar s tracked := keepsGrammar_of_kept rfl rfl
    have htap := htrack.trans (tapSymbol_keepsGrammar (levelDibit (slice (softValue s)))
      (confidence (slicerError (softValue s))) tracked)
    exact htap.trans (takeDibit_keepsGrammar ((tapSymbol_keeps _ _ tracked).1.symm ▸ h) _ _)

theorem takeSample_keepsGrammar {s : State} (h : LegalFsync s.fsync) (i q : Component) :
    KeepsGrammar s (takeSample i q s) := by
  have hfsync : (frontEnd i q (countSample s)).fsync = s.fsync := frontEnd_fsync i q (countSample s)
  have hio : (frontEnd i q (countSample s)).io = s.io := frontEnd_io i q (countSample s)
  rcases takeSample_cases i q s with ⟨-, he⟩ | ⟨-, -, -, he⟩ | ⟨-, -, -, he⟩ <;> rw [he]
  · exact keepsGrammar_of_kept rfl rfl
  · exact keepsGrammar_of_kept hio hfsync
  · exact (keepsGrammar_of_kept hio hfsync).trans (takeStrobe_keepsGrammar (hfsync.symm ▸ h) _)

theorem flushBlock_keepsGrammar (s : State) : KeepsGrammar s (flushBlock s) := by
  refine ⟨_, emits_closeFrame .flush s, ?_⟩
  have hout : frameScan (flushBlock s) = .outside := rfl
  rw [hout, scanTokens_closeTokens (by decide)]

/-- A reset outside PAYLOAD cuts no frame (rule R271). -/
theorem resetBlock_keepsGrammar {s : State} (h : s.fsync.fstate ≠ .payload) : KeepsGrammar s (resetBlock s) :=
  keepsGrammar_of_quiet rfl (frameScan_of_not_payload h).symm

/-- A register write reaches FSYNC through CMD and SYMIN only (rule R217). -/
theorem writeCsr_fsync {r : Csr} (hcmd : r ≠ .cmd) (hsymin : r ≠ .symin) (v : Word32) (s : State) :
    (writeCsr r v s).fsync = s.fsync := by
  cases r with
  | cmd => exact absurd rfl hcmd
  | symin => exact absurd rfl hsymin
  | sps => simp only [writeCsr]; split <;> rfl
  | nidcfg => simp only [writeCsr]; split <;> rfl
  | _ => rfl

theorem writeCmd_of_isNoCommand {v : Word32} (h : isNoCommand v = true) (s : State) : writeCmd v s = s := by
  obtain ⟨h31, h0, h1⟩ := (isNoCommand_iff v).1 h
  simp only [writeCmd, if_neg h31, if_neg h0, if_neg h1]

/-- A write that is decoded no further touches neither FSYNC nor the ports. -/
theorem writePort_keepsGrammar {a : RegNum} {v : Word32} (h : isPlainWrite a v = true) (s : State) :
    KeepsGrammar s (writePort a v s) := by
  simp only [isPlainWrite, Bool.and_eq_true, Bool.or_eq_true, bne_iff_ne] at h
  obtain ⟨⟨hplain, -⟩, hne⟩ := h
  unfold writePort
  split
  · next r hr =>
    have ha := csrNumber_of_csrOf hr
    by_cases hcmd : r = .cmd
    · subst hcmd
      have hnone : isNoCommand v = true := hplain.resolve_left (absurd ha.symm)
      exact keepsGrammar_of_kept (congrArg State.io (writeCmd_of_isNoCommand hnone s))
        (congrArg State.fsync (writeCmd_of_isNoCommand hnone s))
    · have hsymin : r ≠ .symin := by
        rintro rfl
        exact hne ha.symm
      exact keepsGrammar_of_kept (writeCsr_io hcmd hsymin v s) (writeCsr_fsync hcmd hsymin v s)
  · exact keepsGrammar_of_kept rfl rfl

theorem injectDibit_keepsGrammar {s : State} (h : LegalFsync s.fsync) (d : Dibit) (conf : BitVec 8) :
    KeepsGrammar s (injectDibit d conf s) := by
  unfold injectDibit
  split
  · exact takeDibit_keepsGrammar h d conf
  · exact keepsGrammar_of_kept rfl rfl

theorem injectMarker_keepsGrammar (s : State) : KeepsGrammar s (injectMarker s) := by
  unfold injectMarker
  split
  · exact losMark_keepsGrammar .injected s
  · exact keepsGrammar_of_kept rfl rfl

theorem readPort_fsync (a : RegNum) (s : State) : (readPort a s).fsync = s.fsync := by
  unfold readPort
  split <;> rfl

/-- Every operation that an event decodes to keeps the grammar, unless it resets inside a frame. -/
theorem exec_keepsGrammar {i : Instr} {s t : State} (hi : Runnable i) (h : LegalFsync s.fsync)
    (hreset : i = .rst ∨ i = .srst → s.fsync.fstate ≠ .payload) (he : exec i s = .next t) : KeepsGrammar s t := by
  cases i with
  | rst => cases he; exact resetBlock_keepsGrammar (hreset (.inl rfl))
  | srst => cases he; exact resetBlock_keepsGrammar (hreset (.inr rfl))
  | sample x y => cases he; exact takeSample_keepsGrammar h x y
  | csrr a => cases he; exact keepsGrammar_of_quiet (readPort_trace a s) (frameScan_of_fsync (readPort_fsync a s))
  | csrw a v => cases he; exact writePort_keepsGrammar hi.1 s
  | flush thenClr =>
    cases he
    split
    · exact (flushBlock_keepsGrammar s).trans (keepsGrammar_of_kept rfl rfl)
    · exact flushBlock_keepsGrammar s
  | clrcnt => cases he; exact keepsGrammar_of_kept rfl rfl
  | statusw1c clr => cases he; exact keepsGrammar_of_kept rfl rfl
  | sym d conf => cases he; exact injectDibit_keepsGrammar h d conf
  | losinj => cases he; exact injectMarker_keepsGrammar s
  | strobe | unlock | dibit | losmark | niddec => cases hi.2

/-- Settles O49: taking the event emits nothing, and the operation it decodes to keeps the grammar. -/
theorem stepKeepsTheTraceGrammar : Obligations.StepKeepsTheTraceGrammar := by
  intro s t h htrace hreset hstep
  rcases step_cases s with ⟨-, hidle⟩ | ⟨ev, rest, hscript, hexec⟩
  · cases hstep.symm.trans hidle
    exact htrace
  · have hlegal : LegalFsync { s with io := { s.io with script := rest } }.fsync := h.fsync
    have hop := exec_keepsGrammar (decode_runnable ev) hlegal (hreset ev rest hscript) (hexec.symm.trans hstep)
    exact hop.wellFormedTrace htrace

/-- Settles O47: every range holds of the reset values, and no token has been delivered. -/
theorem resetStateIsLegal : Obligations.ResetStateIsLegal := ⟨legal_reset, [], rfl, rfl⟩

end Sys2Proof.Machine

namespace Sys2Proof.Machine

/-! ### The arithmetic primitives (O57) -/

theorem floorShr_mul_le (v : Int) (k : Nat) : floorShr v k * 2 ^ k ≤ v := by
  have h := Int.ediv_mul_le v (b := ((2 ^ k : Nat) : Int)) (by positivity)
  exact_mod_cast h

theorem lt_floorShr_succ_mul (v : Int) (k : Nat) : v < (floorShr v k + 1) * 2 ^ k := by
  have h := Int.lt_ediv_add_one_mul_self v (b := ((2 ^ k : Nat) : Int)) (by positivity)
  exact_mod_cast h

theorem clamp_of_lt {v lo hi : Int} (hle : lo ≤ hi) (h : v < lo) : clamp v lo hi = lo := by
  rw [clamp, max_eq_right h.le, min_eq_left hle]

theorem clamp_of_gt {v lo hi : Int} (hle : lo ≤ hi) (h : hi < v) : clamp v lo hi = hi := by
  rw [clamp, max_eq_left (hle.trans h.le), min_eq_right h.le]

theorem clamp_of_mem {v lo hi : Int} (hlo : lo ≤ v) (hhi : v ≤ hi) : clamp v lo hi = v := by
  rw [clamp, max_eq_left hlo, min_eq_left hhi]

/-- Wrapping takes away a multiple of the word's modulus. -/
theorem exists_eq_wrap16s_add (v : Int) : ∃ k : Int, v = wrap16s v + 65536 * k := by
  have h : wrap16s v % 65536 = v % 65536 := by
    rw [wrap16s, BitVec.toInt_ofInt]
    exact Int.bmod_emod
  exact ⟨(v - wrap16s v) / 65536, by omega⟩

theorem popcount_eq_card_filter {w : Nat} (v : BitVec w) :
    popcount v = ((Finset.range w).filter fun i => v.getLsbD i = true).card := by
  have hlist : ((Finset.range w).filter fun i => v.getLsbD i = true).card =
      ((List.range w).filter fun i => decide (v.getLsbD i = true)).length := rfl
  simp only [popcount, List.countP_eq_length_filter, hlist, Bool.decide_eq_true]

/-- Settles O57: each primitive by the bound or the equation that defines it. -/
theorem notationPrimitivesAreTheSpecs : Obligations.NotationPrimitivesAreTheSpecs := by
  refine ⟨fun v k => ⟨floorShr_mul_le v k, lt_floorShr_succ_mul v k⟩,
    fun v lo hi hle => ⟨clamp_of_lt hle, clamp_of_gt hle, clamp_of_mem⟩,
    fun v => ⟨(wrap16s_bounds v).1, (wrap16s_bounds v).2, exists_eq_wrap16s_add v⟩,
    fun v => ⟨clamp_of_lt (by decide), clamp_of_gt (by decide), clamp_of_mem⟩, fun w v => popcount_eq_card_filter v⟩

/-! ### The step and its script (O5, O6, O7) -/

theorem step_of_script {s : State} {ev : InEvent} {rest : List InEvent} (h : s.io.script = ev :: rest) :
    step s = exec (decode ev) { s with io := { s.io with script := rest } } := by
  rcases step_cases s with ⟨hnil, -⟩ | ⟨ev', rest', hcons, hstep⟩
  · simp [h] at hnil
  · obtain ⟨rfl, rfl⟩ := List.cons.inj (h.symm.trans hcons)
    exact hstep

/-- The event presented next is run at the state it was presented to. -/
theorem step_present (ev : InEvent) (s : State) : step (present ev s) = exec (decode ev) s :=
  step_of_script rfl

/-- A number that is decoded is a port word, and that word is presented (log entry 5). -/
theorem withFetchWord_of_decodeTableWord {nbits w : Nat} {i : Instr} (h : decodeTableWord nbits w = some i)
    (s : State) : ∃ ev, decode ev = i ∧ s.withFetchWord nbits w = present ev s := by
  unfold decodeTableWord at h
  unfold State.withFetchWord
  cases hw : parseWord nbits w with
  | ok ev =>
    rw [hw] at h
    exact ⟨ev, Option.some.inj h, rfl⟩
  | error r =>
    rw [hw] at h
    cases h

/-- Settles O5: the step takes the oldest event, and a presented word is the oldest. -/
theorem stepRunsTheDecodedEvent : Obligations.StepRunsTheDecodedEvent := by
  refine ⟨fun s i ev rest h hi _ => hi ▸ step_of_script h, fun s nbits w i h => ?_⟩
  obtain ⟨ev, rfl, hpresent⟩ := withFetchWord_of_decodeTableWord h s
  rw [hpresent, step_present]

/-- Settles O6: with nothing to fetch the step is idle. -/
theorem stepWithoutAnEventChangesNothing : Obligations.StepWithoutAnEventChangesNothing := by
  intro s h
  rcases step_cases s with ⟨-, hidle⟩ | ⟨ev, rest, hcons, -⟩
  · exact hidle
  · simp [h] at hcons

/-- Settles O7: every meaning answers a next state, whatever the operands are. -/
theorem everyOperationCompletes : Obligations.EveryOperationCompletes := by
  intro i s
  cases i <;> exact ⟨_, rfl⟩

/-! ### What DEMOD does while it only looks (O11, O12, O16, O53) -/

/-- From `s` to `t` nothing outside DEMOD changes. -/
structure DemodOnly (s t : State) : Prop where
  fsync : t.fsync = s.fsync
  nid : t.nid = s.nid
  evt : t.evt = s.evt
  ctl : t.ctl = s.ctl
  io : t.io = s.io

theorem DemodOnly.trans {s t u : State} (h : DemodOnly s t) (h' : DemodOnly t u) : DemodOnly s u :=
  ⟨h'.fsync.trans h.fsync, h'.nid.trans h.nid, h'.evt.trans h.evt, h'.ctl.trans h.ctl, h'.io.trans h.io⟩

theorem countSample_demodOnly (s : State) : DemodOnly s (countSample s) := ⟨rfl, rfl, rfl, rfl, rfl⟩

theorem frontEnd_demodOnly (i q : Component) (s : State) : DemodOnly s (frontEnd i q s) := by
  constructor <;> simp

theorem strobeLoops_demodOnly (s : State) : DemodOnly s (strobeLoops s) := ⟨rfl, rfl, rfl, rfl, rfl⟩

theorem acquire_demodOnly (sig : Bool) (s : State) : DemodOnly s (acquire sig s) := by
  constructor <;> simp

theorem takeStrobe_of_unlocked {s : State} (h : s.demod.locked = false) (sig : Bool) :
    takeStrobe sig s = acquire sig (strobeLoops s) := by
  rcases takeStrobe_cases sig s with ⟨-, he⟩ | ⟨hl, -⟩ | ⟨hl, -⟩ | ⟨hl, -⟩
  · exact he
  all_goals simp [h] at hl

theorem takeStrobe_demodOnly {s : State} (h : s.demod.locked = false) (sig : Bool) :
    DemodOnly s (takeStrobe sig s) := by
  rw [takeStrobe_of_unlocked h]
  exact (strobeLoops_demodOnly s).trans (acquire_demodOnly sig _)

theorem frontEnd_countSample_demodOnly (i q : Component) (s : State) :
    DemodOnly s (frontEnd i q (countSample s)) :=
  (countSample_demodOnly s).trans (frontEnd_demodOnly i q _)

/-- Settles O53: without lock the only thing a strobe can do is acquire. -/
theorem unlockedDemodEmitsNothing : Obligations.UnlockedDemodEmitsNothing := by
  intro i q s h
  have hfront := frontEnd_countSample_demodOnly i q s
  suffices DemodOnly s (takeSample i q s) from
    ⟨_, rfl, this.fsync, this.nid, this.evt, this.ctl, this.io⟩
  rcases takeSample_cases i q s with ⟨-, he⟩ | ⟨-, -, -, he⟩ | ⟨-, -, -, he⟩ <;> rw [he]
  · exact countSample_demodOnly s
  · exact ⟨hfront.fsync, hfront.nid, hfront.evt, hfront.ctl, hfront.io⟩
  · exact hfront.trans (takeStrobe_demodOnly (by simpa using h) _)

/-- Settles O11: the front end leaves the loops' elements alone, and between strobes only TCNT follows. -/
theorem sampleBetweenStrobesCountsDown : Obligations.SampleBetweenStrobesCountsDown := by
  intro i q s hen hby htcnt
  have hfront := frontEnd_by i q s
  have hkeep := frontEnd_countSample_demodOnly i q s
  rcases takeSample_cases i q s with ⟨hgate, -⟩ | ⟨-, -, -, he⟩ | ⟨-, -, hle, -⟩
  · simp [hen, hby] at hgate
  · have hsub : (s.demod.tcnt - 1#6).toNat = s.demod.tcnt.toNat - 1 :=
      BitVec.toNat_sub_of_le (BitVec.le_def.2 htcnt.le)
    refine ⟨_, congrArg Host.Outcome.next he, ?_, by simp, hsub, by simp, by simp, by simp, by simp, by simp,
      by simp, hkeep.fsync, hkeep.nid, hkeep.evt, hkeep.ctl, hkeep.io⟩
    exact ⟨hfront.energy, hfront.php, hfront.phv, hfront.coarse, hfront.keeps, hfront.delay⟩
  · omega

/-- Settles O12: the strobe runs in the state after the front end, with that state's squelch comparison. -/
theorem sampleAtAStrobeCallsStrobe : Obligations.SampleAtAStrobeCallsStrobe := by
  intro i q s hen hby htcnt
  have hkeep := frontEnd_countSample_demodOnly i q s
  rcases takeSample_cases i q s with ⟨hgate, -⟩ | ⟨-, -, hgt, -⟩ | ⟨-, -, -, he⟩
  · simp [hen, hby] at hgate
  · omega
  · exact ⟨frontEnd i q (countSample s), congrArg Host.Outcome.next he, frontEnd_by i q s, by simp, by simp, by simp,
      by simp, by simp, by simp, by simp, by simp, hkeep.fsync, hkeep.nid, hkeep.evt, hkeep.ctl, hkeep.io⟩

/-! ### The movement of ENERGY (O13) -/

theorem floorShr_zero (v : Int) : floorShr v 0 = v := Int.ediv_one v

theorem floorShr_neg {v : Int} (h : v < 0) (k : Nat) : floorShr v k < 0 :=
  Int.ediv_neg_of_neg_of_pos h (by positivity)

theorem floorShr_pos {v : Int} {k : Nat} (h : 2 ^ k ≤ v) : 0 < floorShr v k := by
  have hone : (1 : Int) ≤ v / ((2 ^ k : Nat) : Int) := by
    rw [Int.le_ediv_iff_mul_le (by positivity), one_mul]
    exact_mod_cast h
  exact hone

/-- ENERGY after a demodulated sample is the average of rule R123. -/
theorem takeSample_energy {i q : Component} {s : State} (hen : s.ctl.en = true) (hby : s.ctl.bypass = false) :
    ((takeSample i q s).demod.energy.toNat : Int) =
      average s.demod.energy.toNat (power i q) s.ctl.enshift.toNat := by
  rw [(takeSample_keepsFrontEnd hen hby).energy]
  exact (frontEnd_by i q s).energy

/-- Settles O13: an average lies between its old and its new value, and its step has the sign of the difference. -/
theorem energyStaysBetweenOldValueAndPower : Obligations.EnergyStaysBetweenOldValueAndPower := by
  intro i q s hen hby
  refine ⟨takeSample i q s, rfl, ?_⟩
  intro p
  have henergy : ((takeSample i q s).demod.energy.toNat : Int) =
      average s.demod.energy.toNat p s.ctl.enshift.toNat := takeSample_energy hen hby
  have hp : 0 ≤ p ∧ p ≤ 2147483648 := power_bounds i q
  have hbetween := average_between (lo := min (s.demod.energy.toNat : Int) p) (hi := max (s.demod.energy.toNat : Int) p)
    s.ctl.enshift.toNat ⟨min_le_left _ _, le_max_left _ _⟩ ⟨min_le_right _ _, le_max_right _ _⟩
  rw [← henergy] at hbetween
  refine ⟨hbetween.1, hbetween.2, fun hold => ?bound, fun hshift => ?exact, fun hgt => ?falls, fun hlt => ?rises⟩
  case bound => omega
  case exact =>
    rw [henergy, hshift, average, show (0#4).toNat = 0 from rfl, floorShr_zero]
    omega
  case falls =>
    have hstep := floorShr_neg (v := p - s.demod.energy.toNat) (by omega) s.ctl.enshift.toNat
    unfold average at henergy
    omega
  case rises =>
    have hstep := floorShr_pos (v := p - s.demod.energy.toNat) (k := s.ctl.enshift.toNat) (by linarith)
    unfold average at henergy
    omega

/-! ### Half a turn (O14) -/

/-- The iterations read only the signs of `y`, so a start angle is carried through to the end. -/
theorem cordic_add (ts : List Int) (k : Nat) (x y z c : Int) :
    cordic ts k x y (z + c) = cordic ts k x y z + c := by
  induction ts generalizing k x y z with
  | nil => rfl
  | cons t ts ih =>
    simp only [cordic]
    split
    · rw [add_right_comm, ih]
    · rw [add_sub_right_comm, ih]

/-- Half a turn in the units of CORDIC is half a turn in BAM16 after the rounding. -/
theorem round_add_half_turn (z : Int) :
    BitVec.ofInt 16 (floorShr (z + 8388608 + 128) 8) = BitVec.ofInt 16 (floorShr (z + 128) 8) + 0x8000#16 := by
  have hshift : floorShr (z + 8388608 + 128) 8 = floorShr (z + 128) 8 + 32768 := by
    unfold floorShr
    norm_num
    omega
  rw [hshift, BitVec.ofInt_add]
  rfl

theorem toInt_neg_component {x : Component} (h : -32768 < x.toInt) : (-x).toInt = -x.toInt := by
  have hx := component_bounds x
  rw [BitVec.toInt_neg]
  apply Int.bmod_eq_of_le <;> omega

/-- The left half-plane starts at half a turn (rule R124). -/
theorem arg16_of_neg {i : Component} (h : i.toInt < 0) (q : Component) : arg16 i q =
    BitVec.ofInt 16 (floorShr (cordic Config.atan 0 (-i.toInt * 4096) (-q.toInt * 4096) 8388608 + 128) 8) := by
  unfold arg16
  dsimp only
  rw [if_neg (by omega), if_pos h]

/-- The right half-plane starts at 0 (rule R124). -/
theorem arg16_of_pos {i : Component} (h : 0 < i.toInt) (q : Component) : arg16 i q =
    BitVec.ofInt 16 (floorShr (cordic Config.atan 0 (i.toInt * 4096) (q.toInt * 4096) 0 + 128) 8) := by
  unfold arg16
  dsimp only
  rw [if_neg (by omega), if_neg (by omega)]

/-- The two halves of rule R124 run the same iterations, from half a turn and from 0. -/
theorem arg16_neg {i q : Component} (hneg : i.toInt < 0) (hi : -32768 < i.toInt) (hq : -32768 < q.toInt) :
    arg16 i q = arg16 (-i) (-q) + 0x8000#16 := by
  have hturn := cordic_add Config.atan 0 (-i.toInt * 4096) (-q.toInt * 4096) 0 8388608
  rw [zero_add] at hturn
  have hpos : 0 < (-i).toInt := by
    rw [toInt_neg_component hi]
    omega
  rw [arg16_of_neg hneg, arg16_of_pos hpos, toInt_neg_component hi, toInt_neg_component hq, hturn,
    round_add_half_turn]

theorem takeSample_php {i q : Component} {s : State} (hen : s.ctl.en = true) (hby : s.ctl.bypass = false) :
    (takeSample i q s).demod.php = arg16 i q := by
  rw [(takeSample_keepsFrontEnd hen hby).php]
  simp [frontEnd]

/-- Settles O14: a demodulated sample latches its phase, and the phases are half a turn apart. -/
theorem negatedSampleIsHalfATurnAway : Obligations.NegatedSampleIsHalfATurnAway := by
  intro i q s t u hen hby hneg hi hq ht hu
  obtain rfl : takeSample i q s = t := Host.Outcome.next.inj ht
  obtain rfl : takeSample (-i) (-q) s = u := Host.Outcome.next.inj hu
  rw [takeSample_php hen hby, takeSample_php hen hby, arg16_neg hneg hi hq]

end Sys2Proof.Machine

namespace Sys2Proof.Machine

/-! ### The loops of a strobe (O15) -/

/-- From `s` to `t` the elements the loops of a strobe write stay as they are, and so do the ports but the trace. -/
structure KeepsLoops (s t : State) : Prop where
  sprev : t.demod.sprev = s.demod.sprev
  svalid : t.demod.svalid = s.demod.svalid
  tacc : t.demod.tacc = s.demod.tacc
  tcnt : t.demod.tcnt = s.demod.tcnt
  eyeavg : t.demod.eyeavg = s.demod.eyeavg
  script : t.io.script = s.io.script
  rdata : t.io.rdata = s.io.rdata

theorem KeepsLoops.trans {s t u : State} (h : KeepsLoops s t) (h' : KeepsLoops t u) : KeepsLoops s u :=
  ⟨h'.sprev.trans h.sprev, h'.svalid.trans h.svalid, h'.tacc.trans h.tacc, h'.tcnt.trans h.tcnt,
    h'.eyeavg.trans h.eyeavg, h'.script.trans h.script, h'.rdata.trans h.rdata⟩

theorem FsyncFrame.keepsLoops {s t : State} (h : FsyncFrame s t) : KeepsLoops s t := by
  obtain ⟨hdemod, -, hscript, hrdata⟩ := h
  constructor
  case script => exact hscript
  case rdata => exact hrdata
  all_goals rw [hdemod]

theorem acquire_keepsLoops (sig : Bool) (s : State) : KeepsLoops s (acquire sig s) := by
  constructor <;> simp

theorem loseLock_keepsLoops (cause : LosCause) (s : State) : KeepsLoops s (loseLock cause s) := by
  have hmark := losMark_frame cause { s with demod := { s.demod with locked := false, acqcnt := 0#10 } }
  obtain ⟨sprev, svalid, tacc, tcnt, eyeavg, script, rdata⟩ := hmark.keepsLoops
  exact ⟨sprev, svalid, tacc, tcnt, eyeavg, script, rdata⟩

/-- After its loops a strobe writes none of their elements. -/
theorem takeStrobe_keepsLoops (sig : Bool) (s : State) : KeepsLoops (strobeLoops s) (takeStrobe sig s) := by
  have htrack : KeepsLoops (strobeLoops s) (fineTrack (slicerError (softValue s)) (strobeLoops s)) :=
    ⟨rfl, rfl, rfl, rfl, rfl, rfl, rfl⟩
  rcases takeStrobe_cases sig s with ⟨-, h⟩ | ⟨-, -, h⟩ | ⟨-, -, -, h⟩ | ⟨-, -, -, h⟩ <;> rw [h]
  · exact acquire_keepsLoops sig _
  · exact loseLock_keepsLoops .energy _
  · exact loseLock_keepsLoops .timing _
  · exact htrack.trans (outputSymbol_frame _ _ _).keepsLoops

theorem timingAdjust_of_gt {acc : Int} {tthr : BitVec 24} (h : (tthr.toNat : Int) < acc) :
    timingAdjust acc tthr = (-1, 0) :=
  if_pos h

theorem timingAdjust_of_lt {acc : Int} {tthr : BitVec 24} (h : acc < -(tthr.toNat : Int)) :
    timingAdjust acc tthr = (1, 0) := by
  rw [timingAdjust, if_neg (by omega), if_pos h]

theorem timingAdjust_of_mem {acc : Int} {tthr : BitVec 24} (hlo : -(tthr.toNat : Int) ≤ acc)
    (hhi : acc ≤ tthr.toNat) : timingAdjust acc tthr = (0, acc) := by
  rw [timingAdjust, if_neg (by omega), if_neg (by omega)]

/-- SPREV after a strobe is its soft value, saturated or wrapped to 16 bits (rules R131 and R135). -/
theorem toInt_strobeLoops_sprev (s : State) : (strobeLoops s).demod.sprev.toInt = softAfter s :=
  toInt_narrowSum _ _

/-- Settles O15: the loops by their rules, the timing error against the three ranges of the threshold test; what
follows the loops keeps them. -/
theorem strobeUpdatesItsLoops : Obligations.StrobeUpdatesItsLoops := by
  intro sig s hlegal
  have hkeep := takeStrobe_keepsLoops sig s
  have hfront := takeStrobe_keepsFrontEnd sig s
  have hsps := hlegal.sps.2
  refine ⟨takeStrobe sig s, rfl, ?_⟩
  intro n S0 S1 sv mv a err e acc tthr
  have htacc : (takeStrobe sig s).demod.tacc.toInt = (timingAdjust acc s.ctl.tthr).2 := by
    rw [hkeep.tacc]
    exact toInt_strobeLoops_tacc s
  have htcnt : ((takeStrobe sig s).demod.tcnt.toNat : Int) = n + (timingAdjust acc s.ctl.tthr).1 := by
    rw [hkeep.tcnt]
    exact toNat_strobeLoops_tcnt hsps
  refine ⟨?sprev, hkeep.svalid, fun h => ?early, fun h => ?late, fun hlo hhi => ?kept, ?eyeavg, hfront.tsamp,
    hfront.energy, hfront.php, hfront.phv, hfront.dl, hfront.ctl, hkeep.script, hkeep.rdata⟩
  case sprev =>
    rw [hkeep.sprev]
    exact toInt_strobeLoops_sprev s
  case early =>
    rw [timingAdjust_of_gt h] at htacc htcnt
    exact ⟨htacc, by omega⟩
  case late =>
    rw [timingAdjust_of_lt h] at htacc htcnt
    exact ⟨htacc, by omega⟩
  case kept =>
    rw [timingAdjust_of_mem hlo hhi] at htacc htcnt
    exact ⟨htacc, by omega⟩
  case eyeavg =>
    rw [hkeep.eyeavg]
    exact strobeLoops_eyeavg s

/-! ### Acquisition (O16) -/

theorem toNat_countQualifying (n : BitVec 10) : (countQualifying n).toNat = min 1023 (n.toNat + 1) := by
  rw [countQualifying, BitVec.toNat_ofNat]
  omega

/-- A strobe qualifies with a signal and an open eye (rule R140). -/
theorem acquire_of_qualifying {sig : Bool} {s : State} (hsig : sig = true)
    (heye : s.demod.eyeavg.toNat ≤ s.ctl.lthr.toNat) : (acquire sig s).demod = { s.demod with
      acqcnt := countQualifying s.demod.acqcnt
      locked := decide (s.ctl.acqsyms.toNat ≤ (countQualifying s.demod.acqcnt).toNat) } := by
  rw [acquire, if_pos (by simp [hsig, heye])]

theorem acquire_of_not_qualifying {sig : Bool} {s : State}
    (h : sig = false ∨ s.ctl.lthr.toNat < s.demod.eyeavg.toNat) :
    (acquire sig s).demod = { s.demod with acqcnt := 0#10 } := by
  rw [acquire, if_neg]
  rcases h with h | h <;> simp [h]

/-- Settles O16: an unlocked strobe is its loops and then acquisition, which writes ACQCNT and LOCKED only. -/
theorem strobeAcquires : Obligations.StrobeAcquires := by
  intro sig s hl
  have hkeep := takeStrobe_demodOnly hl sig
  have heye := strobeLoops_eyeavg s
  have he := takeStrobe_of_unlocked hl sig
  refine ⟨takeStrobe sig s, rfl, fun h => ?qualifying, fun h => ?broken, takeStrobe_foff_of_unlocked hl, hkeep.fsync,
    hkeep.nid, hkeep.evt, hkeep.ctl, hkeep.io⟩
  case qualifying =>
    have hopen : (strobeLoops s).demod.eyeavg.toNat ≤ (strobeLoops s).ctl.lthr.toNat :=
      Int.ofNat_le.1 (heye.trans_le h.2)
    rw [he, acquire_of_qualifying h.1 hopen]
    exact ⟨toNat_countQualifying _, decide_eq_true_iff⟩
  case broken =>
    have hclosed : sig = false ∨ (strobeLoops s).ctl.lthr.toNat < (strobeLoops s).demod.eyeavg.toNat :=
      h.imp_right fun hgt => Int.ofNat_lt.1 (hgt.trans_eq heye.symm)
    rw [he, acquire_of_not_qualifying hclosed]
    exact ⟨rfl, hl⟩

/-! ### Losing lock (O17, O19) -/

/-- A locked strobe without a signal or with a closed eye loses lock; the energy test comes first (rule R138). -/
theorem takeStrobe_of_lost {sig : Bool} {s : State} (hl : s.demod.locked = true)
    (h : sig = false ∨ s.ctl.uthr.toNat < eyeAfter s) :
    takeStrobe sig s = loseLock (if sig then .timing else .energy) (strobeLoops s) := by
  have heye := strobeLoops_eyeavg s
  rcases takeStrobe_cases sig s with ⟨hu, -⟩ | ⟨-, rfl, he⟩ | ⟨-, rfl, -, he⟩ | ⟨-, rfl, hle, -⟩
  · simp [hl] at hu
  · exact he
  · exact he
  · have hgt := h.resolve_left (by simp)
    omega

/-- Settles O17: the marker of the lost lock is LOSMARK in the state after the loops, which emit nothing. -/
theorem strobeLosesLock : Obligations.StrobeLosesLock := by
  intro sig s hl h
  have he := takeStrobe_of_lost hl h
  have hkeep := takeStrobe_keepsFrontEnd sig s
  set cause : LosCause := if sig then .timing else .energy
  set unlocked : State :=
    { strobeLoops s with demod := { (strobeLoops s).demod with locked := false, acqcnt := 0#10 } }
  have hmark : takeStrobe sig s = losMark cause unlocked := he
  have hdemod : (takeStrobe sig s).demod = unlocked.demod := by rw [hmark, (losMark_frame cause unlocked).demod]
  refine ⟨takeStrobe sig s, rfl, by rw [hdemod], by rw [hdemod], by rw [hdemod]; rfl, ?fsync, ?nid, ?evt, hkeep.ctl,
    ?emits⟩
  case fsync => rw [hmark, losMark_fsync]; rfl
  case nid => rw [hmark, losMark_nid]; rfl
  case evt => rw [hmark, losMark_evt]; rfl
  case emits =>
    rw [hmark, ← closeTokens_eq_ite]
    exact losMark_emits cause unlocked

/-- Settles O19: UNLOCK is LOSMARK in the state without lock, and LOSMARK leaves DEMOD alone. -/
theorem unlockClearsLockAndMarks : Obligations.UnlockClearsLockAndMarks := fun cause s =>
  ⟨loseLock cause s, rfl, rfl, loseLock_demod cause s⟩

/-! ### DEMOD reads DEMOD and the configuration only (O52) -/

/-- Two states that DEMOD cannot tell apart. -/
structure AgreeDemod (s s' : State) : Prop where
  demod : s.demod = s'.demod
  ctl : s.ctl = s'.ctl

theorem sigPresent_agree {s s' : State} (h : AgreeDemod s s') : sigPresent s = sigPresent s' := by
  rw [sigPresent, sigPresent, h.demod, h.ctl]

theorem softValue_agree {s s' : State} (h : AgreeDemod s s') : softValue s = softValue s' := by
  rw [softValue, softValue, h.demod, h.ctl]

theorem midValue_agree {s s' : State} (h : AgreeDemod s s') : midValue s = midValue s' := by
  rw [midValue, midValue, h.demod, h.ctl]

theorem countSample_agree {s s' : State} (h : AgreeDemod s s') : AgreeDemod (countSample s) (countSample s') := by
  refine ⟨?_, h.ctl⟩
  rw [countSample, countSample, h.demod]

theorem updateEnergy_agree (i q : Component) {s s' : State} (h : AgreeDemod s s') :
    AgreeDemod (updateEnergy i q s) (updateEnergy i q s') := by
  refine ⟨?_, h.ctl⟩
  rw [updateEnergy, updateEnergy, h.demod, h.ctl]

theorem latchPhase_agree (phi : Phase) {s s' : State} (h : AgreeDemod s s') :
    AgreeDemod (latchPhase phi s) (latchPhase phi s') := by
  refine ⟨?_, h.ctl⟩
  rw [latchPhase, latchPhase, h.demod]

theorem coarseTrack_agree (f : Int) {s s' : State} (h : AgreeDemod s s') :
    AgreeDemod (coarseTrack f s) (coarseTrack f s') := by
  unfold coarseTrack
  rw [sigPresent_agree h, h.demod, h.ctl]
  split
  · exact ⟨rfl, rfl⟩
  · exact h

theorem pushDelay_agree (f : Int) {s s' : State} (h : AgreeDemod s s') :
    AgreeDemod (pushDelay f s) (pushDelay f s') := by
  refine ⟨?_, h.ctl⟩
  rw [pushDelay, pushDelay, h.demod]

theorem frontEnd_agree (i q : Component) {s s' : State} (h : AgreeDemod s s') :
    AgreeDemod (frontEnd i q s) (frontEnd i q s') := by
  unfold frontEnd
  rw [h.demod]
  exact pushDelay_agree _ (coarseTrack_agree _ (latchPhase_agree _ (updateEnergy_agree i q h)))

theorem updateTiming_agree (sv mv : Int) {s s' : State} (h : AgreeDemod s s') :
    AgreeDemod (updateTiming sv mv s) (updateTiming sv mv s') := by
  refine ⟨?_, h.ctl⟩
  rw [updateTiming, updateTiming, h.demod, h.ctl]

theorem updateEye_agree (err : Int) {s s' : State} (h : AgreeDemod s s') :
    AgreeDemod (updateEye err s) (updateEye err s') := by
  refine ⟨?_, h.ctl⟩
  rw [updateEye, updateEye, h.demod, h.ctl]

theorem strobeLoops_agree {s s' : State} (h : AgreeDemod s s') : AgreeDemod (strobeLoops s) (strobeLoops s') := by
  unfold strobeLoops
  rw [softValue_agree h, midValue_agree h]
  exact updateEye_agree _ (updateTiming_agree _ _ h)

theorem acquire_agree (sig : Bool) {s s' : State} (h : AgreeDemod s s') :
    AgreeDemod (acquire sig s) (acquire sig s') := by
  unfold acquire
  rw [h.demod, h.ctl]
  split <;> exact ⟨rfl, rfl⟩

theorem fineTrack_agree (err : Int) {s s' : State} (h : AgreeDemod s s') :
    AgreeDemod (fineTrack err s) (fineTrack err s') := by
  refine ⟨?_, h.ctl⟩
  rw [fineTrack, fineTrack, h.demod, h.ctl]

/-- Lock supervision writes LOCKED, ACQCNT and FOFF of DEMOD; FSYNC has no path back (rule R177). -/
theorem supervise_agree (sig : Bool) (a : Level) (err : Int) {s s' : State} (h : AgreeDemod s s') :
    (supervise sig a err s).demod = (supervise sig a err s').demod := by
  unfold supervise
  rw [h.demod, h.ctl]
  split
  · rw [loseLock_demod, loseLock_demod, h.demod]
  · split
    · rw [loseLock_demod, loseLock_demod, h.demod]
    · rw [(outputSymbol_frame _ _ _).demod, (outputSymbol_frame _ _ _).demod]
      exact (fineTrack_agree err h).demod

theorem takeStrobe_agree (sig : Bool) {s s' : State} (h : AgreeDemod s s') :
    (takeStrobe sig s).demod = (takeStrobe sig s').demod := by
  have hloops := strobeLoops_agree h
  have heq (u : State) : takeStrobe sig u = if (strobeLoops u).demod.locked then
      supervise sig (slice (softValue u)) (slicerError (softValue u)) (strobeLoops u)
      else acquire sig (strobeLoops u) := rfl
  rw [heq, heq, hloops.demod, softValue_agree h]
  split
  · exact supervise_agree _ _ _ hloops
  · exact (acquire_agree sig hloops).demod

theorem symbolClock_agree {s s' : State} (h : AgreeDemod s s') :
    (symbolClock s).demod = (symbolClock s').demod := by
  unfold symbolClock
  rw [h.demod, sigPresent_agree h]
  split
  · rfl
  · exact takeStrobe_agree _ h

theorem takeSample_agree (i q : Component) {s s' : State} (h : AgreeDemod s s') :
    (takeSample i q s).demod = (takeSample i q s').demod := by
  have hcount := countSample_agree h
  unfold takeSample
  dsimp only
  rw [hcount.ctl]
  split
  · exact symbolClock_agree (frontEnd_agree i q hcount)
  · exact hcount.demod

/-- Settles O52: each part of a sample answers the same DEMOD from states that DEMOD cannot tell apart. -/
theorem demodNeverReadsFsyncOrNiddec : Obligations.DemodNeverReadsFsyncOrNiddec := by
  intro i q s s' t t' hdemod hctl ht ht'
  obtain rfl : takeSample i q s = t := Host.Outcome.next.inj ht
  obtain rfl : takeSample i q s' = t' := Host.Outcome.next.inj ht'
  exact takeSample_agree i q ⟨hdemod, hctl⟩

end Sys2Proof.Machine

namespace Sys2Proof.Machine

/-! ### The configuration registers (O51) -/

theorem loseLock_ctl (cause : LosCause) (s : State) : (loseLock cause s).ctl = s.ctl :=
  (losMark_frame cause { s with demod := { s.demod with locked := false, acqcnt := 0#10 } }).ctl

theorem injectDibit_ctl (d : Dibit) (conf : BitVec 8) (s : State) : (injectDibit d conf s).ctl = s.ctl := by
  unfold injectDibit
  split
  · exact (takeDibit_frame d conf s).ctl
  · rfl

theorem injectMarker_ctl (s : State) : (injectMarker s).ctl = s.ctl := by
  unfold injectMarker
  split
  · exact (losMark_frame .injected s).ctl
  · rfl

theorem readPort_ctl (a : RegNum) (s : State) : (readPort a s).ctl = s.ctl := by
  unfold readPort
  split <;> rfl

/-- Settles O51: every operation but the excluded ones by the frame of its meaning. -/
theorem onlyWritesAndResetsChangeConfiguration : Obligations.OnlyWritesAndResetsChangeConfiguration := by
  intro i s t h hcsrw hrst hsrst
  cases i with
  | rst => exact absurd rfl hrst
  | srst => exact absurd rfl hsrst
  | csrw a v => exact absurd rfl (hcsrw a v)
  | sample x y => cases h; exact takeSample_ctl x y s
  | csrr a => cases h; exact readPort_ctl a s
  | flush thenClr => cases h; split <;> exact flushBlock_ctl s
  | clrcnt => cases h; rfl
  | statusw1c clr => cases h; rfl
  | sym d conf => cases h; exact injectDibit_ctl d conf s
  | losinj => cases h; exact injectMarker_ctl s
  | strobe sig => cases h; exact (takeStrobe_keepsFrontEnd sig s).ctl
  | unlock cause => cases h; exact loseLock_ctl cause s
  | dibit d conf => cases h; exact (takeDibit_frame d conf s).ctl
  | losmark cause => cases h; exact (losMark_frame cause s).ctl
  | niddec => cases h; exact (nidDecode_frame s).ctl

/-! ### FSYNC has no path to DEMOD, and announces headers through NIDDEC only (O54) -/

/-- A token that goes with no counter: it is no HDR, no DECERR and no LOS (60_exceptions.md rule R241). -/
structure Uncounted (x : Token) : Prop where
  hdr : x.isHdr = false
  decerr : x.isDecerr = false
  los : x.isLos = false

theorem closeTokens_uncounted {reason : EndReason} {f : Fsync} {x : Token} (h : x ∈ closeTokens reason f) :
    Uncounted x := by
  rw [closeTokens_eq_ite] at h
  split at h
  · obtain rfl := List.mem_singleton.1 h
    exact ⟨rfl, rfl, rfl⟩
  · cases h

/-- Going from `s` to `t` appends tokens to the output trace, and no HDR and no DECERR among them. -/
def EmitsNoHeader (s t : State) : Prop :=
  ∃ toks, Emits s t toks ∧ ∀ x ∈ toks, x.isHdr = false ∧ x.isDecerr = false

theorem losMark_emitsNoHeader (cause : LosCause) (s : State) : EmitsNoHeader s (losMark cause s) := by
  refine ⟨_, losMark_emits cause s, fun x hx => ?_⟩
  rcases List.mem_append.1 hx with hend | hlos
  · have hx := closeTokens_uncounted hend
    exact ⟨hx.hdr, hx.decerr⟩
  · obtain rfl := List.mem_singleton.1 hlos
    exact ⟨rfl, rfl⟩

theorem EmitsNoHeader.of_uncounted {s t : State} {toks : List Token} (he : Emits s t toks)
    (h : ∀ x ∈ toks, Uncounted x) : EmitsNoHeader s t :=
  ⟨toks, he, fun x hx => ⟨(h x hx).hdr, (h x hx).decerr⟩⟩

theorem startCandidate_emitsNoHeader (dist : Nat) (s : State) : EmitsNoHeader s (startCandidate dist s) :=
  .of_uncounted (startCandidate_emits dist s) fun _ => closeTokens_uncounted

/-- What a payload dibit emits: PAY, or PAY and END (rule R169). -/
theorem payloadDibit_emits (d : Dibit) (conf : BitVec 8) (s : State) :
    ∃ toks, Emits s (payloadDibit d conf s) toks ∧ ∀ x ∈ toks, Uncounted x := by
  rcases Nat.lt_or_ge (s.fsync.pos + 1).toNat s.fsync.flen.toNat with hlt | hle
  · refine ⟨_, (payloadDibit_of_inside hlt d conf).2, fun x hx => ?_⟩
    obtain rfl := List.mem_singleton.1 hx
    exact ⟨rfl, rfl, rfl⟩
  · refine ⟨_, (payloadDibit_of_last hle d conf).2, fun x hx => ?_⟩
    rcases List.mem_pair.1 hx with rfl | rfl <;> exact ⟨rfl, rfl, rfl⟩

/-- Only in state NID can a dibit reach NIDDEC, the source of HDR and DECERR (rule R160). -/
theorem takeDibit_emitsNoHeader {s : State} (hs : s.fsync.fstate ≠ .nid) (d : Dibit) (conf : BitVec 8) :
    EmitsNoHeader s (takeDibit d conf s) := by
  suffices EmitsNoHeader (shiftWindow d s) (takeDibit d conf s) from this
  rcases takeDibit_cases d conf s with ⟨-, h⟩ | ⟨-, -, h⟩ | ⟨-, hnid, -⟩ | ⟨-, -, h⟩
  · exact h ▸ startCandidate_emitsNoHeader _ _
  · exact h ▸ ⟨[], emits_nil (searchDibit_trace _), fun x hx => absurd hx List.not_mem_nil⟩
  · exact absurd hnid hs
  · obtain ⟨toks, he, hnone⟩ := payloadDibit_emits d conf (shiftWindow d s)
    exact h ▸ .of_uncounted he hnone

theorem injectDibit_demod (d : Dibit) (conf : BitVec 8) (s : State) : (injectDibit d conf s).demod = s.demod := by
  unfold injectDibit
  split
  · exact (takeDibit_frame d conf s).demod
  · rfl

theorem injectMarker_demod (s : State) : (injectMarker s).demod = s.demod := by
  unfold injectMarker
  split
  · exact (losMark_frame .injected s).demod
  · rfl

/-- Settles O54: DEMOD is in the frame of every operation of FSYNC and NIDDEC, and outside NID a dibit reaches no
NIDDEC. -/
theorem fsyncNeverTouchesDemod : Obligations.FsyncNeverTouchesDemod := by
  intro d conf cause s
  obtain ⟨toks, hemits, hnone⟩ := losMark_emitsNoHeader cause s
  exact ⟨⟨_, rfl, (takeDibit_frame d conf s).demod, fun hs => takeDibit_emitsNoHeader hs d conf⟩,
    ⟨_, toks, rfl, (losMark_frame cause s).demod, hemits, hnone⟩, ⟨_, rfl, (nidDecode_frame s).demod⟩,
    ⟨_, rfl, injectDibit_demod d conf s⟩, ⟨_, rfl, injectMarker_demod s⟩⟩

/-! ### The counters count the tokens (O50) -/

/-- From `m` to `n` the three counters go up by the HDR, DECERR and LOS tokens among `toks`. -/
structure CountedBy (toks : List Token) (m n : Nid) : Prop where
  framecnt : n.framecnt = m.framecnt + BitVec.ofNat 32 (toks.countP Token.isHdr)
  decerrcnt : n.decerrcnt = m.decerrcnt + BitVec.ofNat 32 (toks.countP Token.isDecerr)
  loscnt : n.loscnt = m.loscnt + BitVec.ofNat 32 (toks.countP Token.isLos)

/-- From `s` to `t` the counters go up by the tokens emitted (60_exceptions.md rule R241). -/
def CountsTokens (s t : State) : Prop := ∃ toks, Emits s t toks ∧ CountedBy toks s.nid t.nid

theorem CountedBy.trans {xs ys : List Token} {l m n : Nid} (h : CountedBy xs l m) (h' : CountedBy ys m n) :
    CountedBy (xs ++ ys) l n := by
  constructor
  case framecnt => rw [h'.framecnt, h.framecnt, List.countP_append, BitVec.ofNat_add, BitVec.add_assoc]
  case decerrcnt => rw [h'.decerrcnt, h.decerrcnt, List.countP_append, BitVec.ofNat_add, BitVec.add_assoc]
  case loscnt => rw [h'.loscnt, h.loscnt, List.countP_append, BitVec.ofNat_add, BitVec.add_assoc]

theorem CountsTokens.trans {s t u : State} (h : CountsTokens s t) (h' : CountsTokens t u) : CountsTokens s u := by
  obtain ⟨xs, hx, hxs⟩ := h
  obtain ⟨ys, hy, hys⟩ := h'
  exact ⟨xs ++ ys, hx.trans hy, hxs.trans hys⟩

/-- Tokens that no counter counts go with counters that stay as they are. -/
theorem countedBy_of_uncounted {toks : List Token} {m n : Nid}
    (h : ∀ x ∈ toks, Uncounted x) (hframe : n.framecnt = m.framecnt)
    (hdecerr : n.decerrcnt = m.decerrcnt) (hlos : n.loscnt = m.loscnt) : CountedBy toks m n := by
  have hzero {p : Token → Bool} (hp : ∀ x ∈ toks, p x = false) : BitVec.ofNat 32 (toks.countP p) = 0#32 := by
    rw [List.countP_eq_zero.2 fun x hx => Bool.not_eq_true _ ▸ hp x hx]
  constructor
  case framecnt => rw [hframe, hzero fun x hx => (h x hx).hdr, BitVec.add_zero]
  case decerrcnt => rw [hdecerr, hzero fun x hx => (h x hx).decerr, BitVec.add_zero]
  case loscnt => rw [hlos, hzero fun x hx => (h x hx).los, BitVec.add_zero]

theorem countsTokens_of_kept {s t : State} (htrace : t.io.trace = s.io.trace) (hnid : t.nid = s.nid) :
    CountsTokens s t :=
  ⟨[], emits_nil htrace, countedBy_of_uncounted (fun x hx => absurd hx List.not_mem_nil) (by rw [hnid])
    (by rw [hnid]) (by rw [hnid])⟩

/-- One LOS, and LOSCNT one more (rule R171). -/
theorem losMark_countsTokens (cause : LosCause) (s : State) : CountsTokens s (losMark cause s) := by
  have hend : CountedBy (closeTokens .los s.fsync) s.nid s.nid :=
    countedBy_of_uncounted (fun x => closeTokens_uncounted) rfl rfl rfl
  have hlos : CountedBy [.los cause] s.nid (losMark cause s).nid := by
    rw [losMark_nid]
    exact ⟨(BitVec.add_zero _).symm, (BitVec.add_zero _).symm, rfl⟩
  exact ⟨_, losMark_emits cause s, hend.trans hlos⟩

theorem startCandidate_countsTokens (dist : Nat) (s : State) : CountsTokens s (startCandidate dist s) := by
  refine ⟨_, startCandidate_emits dist s, ?_⟩
  rw [startCandidate_nid]
  exact countedBy_of_uncounted (fun x => closeTokens_uncounted) rfl rfl rfl

/-- The expiry of the search window has a sticky bit but no counter (rule R241). -/
theorem searchDibit_nid (s : State) : (searchDibit s).nid = s.nid := by
  rcases searchDibit_cases s with ⟨-, h⟩ | ⟨-, -, h⟩ | ⟨-, -, h⟩ <;> exact congrArg (·.nid) h

/-- One HDR and FRAMECNT one more, or one DECERR and DECERRCNT one more (rules R198 and R199). -/
theorem nidDecode_countsTokens (s : State) : CountsTokens s (nidDecode s) := by
  rcases nidDecode_cases s with ⟨c, -, h⟩ | ⟨-, h⟩
  · set nerr := popcount (nidCode s.fsync.nidacc ^^^ c)
    have hcounted (rest : List Token) (hrest : rest = [] ∨ rest = [.frameEnd .len s.fsync.pos]) :
        CountedBy (headerToken c nerr (latchNid s) :: rest) s.nid (nidDecode s).nid := by
      rw [h, acceptNid_nid]
      rcases hrest with rfl | rfl <;>
        exact ⟨rfl, (BitVec.add_zero _).symm, (BitVec.add_zero _).symm⟩
    rcases Nat.lt_or_ge s.fsync.pos.toNat (dutEntry (duidOf c) s.ctl).len.toNat with hlt | hle
    · exact ⟨_, h ▸ (acceptNid_of_lt_len (s := latchNid s) hlt nerr).2, hcounted [] (.inl rfl)⟩
    · exact ⟨_, h ▸ (acceptNid_of_len_le (s := latchNid s) hle nerr).2, hcounted _ (.inr rfl)⟩
  · rw [h]
    exact ⟨[.decerr s.fsync.nidacc], rfl, (BitVec.add_zero _).symm, rfl, (BitVec.add_zero _).symm⟩

theorem nidDibit_countsTokens (d : Dibit) (s : State) : CountsTokens s (nidDibit d s) := by
  rcases nidDibit_cases d s with ⟨-, h⟩ | ⟨-, -, h⟩ | ⟨-, -, h⟩ <;> rw [h]
  · exact countsTokens_of_kept rfl rfl
  · exact nidDecode_countsTokens (collectDibit d (advancePos s))
  · exact countsTokens_of_kept rfl rfl

theorem payloadDibit_countsTokens (d : Dibit) (conf : BitVec 8) (s : State) :
    CountsTokens s (payloadDibit d conf s) := by
  obtain ⟨toks, he, hnone⟩ := payloadDibit_emits d conf s
  refine ⟨toks, he, ?_⟩
  rw [(payloadDibit_keeps d conf s).1]
  exact countedBy_of_uncounted hnone rfl rfl rfl

theorem takeDibit_countsTokens (d : Dibit) (conf : BitVec 8) (s : State) :
    CountsTokens s (takeDibit d conf s) := by
  suffices CountsTokens (shiftWindow d s) (takeDibit d conf s) from this
  rcases takeDibit_cases d conf s with ⟨-, h⟩ | ⟨-, -, h⟩ | ⟨-, -, h⟩ | ⟨-, -, h⟩ <;> rw [h]
  · exact startCandidate_countsTokens _ _
  · exact countsTokens_of_kept (searchDibit_trace _) (searchDibit_nid _)
  · exact nidDibit_countsTokens d _
  · exact payloadDibit_countsTokens d conf _

theorem tapSymbol_countsTokens (d : Dibit) (conf : BitVec 8) (s : State) :
    CountsTokens s (tapSymbol d conf s) := by
  refine ⟨_, tapSymbol_emits d conf s, ?_⟩
  rw [(tapSymbol_keeps d conf s).2.1]
  refine countedBy_of_uncounted (fun x hx => ?_) rfl rfl rfl
  split at hx
  · obtain rfl := List.mem_singleton.1 hx
    exact ⟨rfl, rfl, rfl⟩
  · cases hx

theorem loseLock_countsTokens (cause : LosCause) (s : State) : CountsTokens s (loseLock cause s) :=
  losMark_countsTokens cause { s with demod := { s.demod with locked := false, acqcnt := 0#10 } }

theorem outputSymbol_countsTokens (d : Dibit) (conf : BitVec 8) (s : State) :
    CountsTokens s (outputSymbol d conf s) :=
  (tapSymbol_countsTokens d conf s).trans (takeDibit_countsTokens d conf _)

theorem takeStrobe_countsTokens (sig : Bool) (s : State) : CountsTokens s (takeStrobe sig s) := by
  suffices CountsTokens (strobeLoops s) (takeStrobe sig s) from this
  rcases takeStrobe_cases sig s with ⟨-, h⟩ | ⟨-, -, h⟩ | ⟨-, -, -, h⟩ | ⟨-, -, -, h⟩ <;> rw [h]
  · exact countsTokens_of_kept (congrArg Ports.trace (acquire_io _ _)) (acquire_nid _ _)
  · exact loseLock_countsTokens .energy _
  · exact loseLock_countsTokens .timing _
  · exact outputSymbol_countsTokens _ _ (fineTrack (slicerError (softValue s)) (strobeLoops s))

theorem takeSample_countsTokens (i q : Component) (s : State) : CountsTokens s (takeSample i q s) := by
  have hkeep := frontEnd_countSample_demodOnly i q s
  have hfront : CountsTokens s (frontEnd i q (countSample s)) :=
    countsTokens_of_kept (congrArg Ports.trace hkeep.io) hkeep.nid
  rcases takeSample_cases i q s with ⟨-, h⟩ | ⟨-, -, -, h⟩ | ⟨-, -, -, h⟩ <;> rw [h]
  · exact countsTokens_of_kept rfl rfl
  · exact hfront
  · exact hfront.trans (takeStrobe_countsTokens _ _)

theorem flushBlock_countsTokens (s : State) : CountsTokens s (flushBlock s) := by
  refine ⟨_, emits_closeFrame .flush s, ?_⟩
  rw [flushBlock_nid]
  exact countedBy_of_uncounted (fun x => closeTokens_uncounted) rfl rfl rfl

theorem injectDibit_countsTokens (d : Dibit) (conf : BitVec 8) (s : State) :
    CountsTokens s (injectDibit d conf s) := by
  unfold injectDibit
  split
  · exact takeDibit_countsTokens d conf s
  · exact countsTokens_of_kept rfl rfl

theorem injectMarker_countsTokens (s : State) : CountsTokens s (injectMarker s) := by
  unfold injectMarker
  split
  · exact losMark_countsTokens .injected s
  · exact countsTokens_of_kept rfl rfl

/-- A register write reaches the counters through CMD and SYMIN only (rule R217). -/
theorem writeCsr_nid {r : Csr} (hcmd : r ≠ .cmd) (hsymin : r ≠ .symin) (v : Word32) (s : State) :
    (writeCsr r v s).nid = s.nid := by
  cases r with
  | cmd => exact absurd rfl hcmd
  | symin => exact absurd rfl hsymin
  | sps => simp only [writeCsr]; split <;> rfl
  | nidcfg => simp only [writeCsr]; split <;> rfl
  | _ => rfl

theorem writeSymin_countsTokens (v : Word32) (s : State) : CountsTokens s (writeSymin v s) := by
  unfold writeSymin
  split
  · exact injectMarker_countsTokens s
  · exact injectDibit_countsTokens _ _ s

theorem writePort_countsTokens {a : RegNum} (ha : a ≠ 0x02#8) (v : Word32) (s : State) :
    CountsTokens s (writePort a v s) := by
  unfold writePort
  split
  · next r hr =>
    have hcmd : r ≠ .cmd := by
      rintro rfl
      exact ha (csrNumber_of_csrOf hr).symm
    by_cases hsymin : r = .symin
    · subst hsymin
      exact writeSymin_countsTokens v s
    · exact countsTokens_of_kept (congrArg Ports.trace (writeCsr_io hcmd hsymin v s)) (writeCsr_nid hcmd hsymin v s)
  · exact countsTokens_of_kept rfl rfl

theorem readPort_nid (a : RegNum) (s : State) : (readPort a s).nid = s.nid := by
  unfold readPort
  split <;> rfl

/-- Settles O50: every emission of a counted token stands beside the report that counts it. -/
theorem countersCountTheTokens : Obligations.CountersCountTheTokens := by
  intro i s t h hrst hsrst hclrcnt hflush hcmd
  suffices CountsTokens s t by
    obtain ⟨toks, hemits, hframe, hdecerr, hlos⟩ := this
    exact ⟨toks, hemits, hframe, hdecerr, hlos⟩
  cases i with
  | rst => exact absurd rfl hrst
  | srst => exact absurd rfl hsrst
  | clrcnt => exact absurd rfl hclrcnt
  | flush thenClr =>
    cases thenClr with
    | true => exact absurd rfl hflush
    | false => cases h; exact flushBlock_countsTokens s
  | csrw a v => cases h; exact writePort_countsTokens (fun ha => hcmd v (ha ▸ rfl)) v s
  | sample x y => cases h; exact takeSample_countsTokens x y s
  | csrr a => cases h; exact countsTokens_of_kept (readPort_trace a s) (readPort_nid a s)
  | statusw1c clr => cases h; exact countsTokens_of_kept rfl rfl
  | sym d conf => cases h; exact injectDibit_countsTokens d conf s
  | losinj => cases h; exact injectMarker_countsTokens s
  | strobe sig => cases h; exact takeStrobe_countsTokens sig s
  | unlock cause => cases h; exact loseLock_countsTokens cause s
  | dibit d conf => cases h; exact takeDibit_countsTokens d conf s
  | losmark cause => cases h; exact losMark_countsTokens cause s
  | niddec => cases h; exact nidDecode_countsTokens s

end Sys2Proof.Machine

namespace Sys2Proof.Machine

/-! ### Reading a register back (O38) -/

/-- A field of the data word, put back where it came from, is the word under the field's mask. -/
theorem field_eq_and_mask (v : Word32) (start len : Nat) :
    (v.extractLsb' start len ++ 0#start).setWidth 32 = v &&& BitVec.ofNat 32 ((2 ^ len - 1) * 2 ^ start) := by
  apply BitVec.eq_of_getLsbD_eq
  intro i hi
  rw [BitVec.getLsbD_and, BitVec.getLsbD_ofNat, Nat.testBit_mul_two_pow, Nat.testBit_two_pow_sub_one,
    BitVec.getLsbD_setWidth, BitVec.getLsbD_append, BitVec.getLsbD_extractLsb', decide_eq_true hi]
  by_cases hs : i < start
  · simp [hs, Nat.not_le.2 hs]
  · have hcancel : start + (i - start) = i := by omega
    rw [if_neg hs, hcancel, decide_eq_true (Nat.not_lt.1 hs)]
    simp only [Bool.true_and, Bool.and_comm]

/-- A field at the low end of the data word is the word under the field's mask. -/
theorem lowField_eq_and_mask (v : Word32) {len : Nat} (h : len ≤ 32) :
    (v.extractLsb' 0 len).setWidth 32 = v &&& BitVec.ofNat 32 (2 ^ len - 1) := by
  have hpow : 2 ^ len ≤ 2 ^ 32 := Nat.pow_le_pow_right (by decide) h
  have hpos : 0 < 2 ^ len := by positivity
  have hmask : (2 ^ len - 1) % 2 ^ 32 = 2 ^ len - 1 := Nat.mod_eq_of_lt (by omega)
  apply BitVec.eq_of_toNat_eq
  rw [BitVec.toNat_setWidth_of_le h, BitVec.extractLsb'_toNat, Nat.shiftRight_zero, BitVec.toNat_and,
    BitVec.toNat_ofNat, hmask, Nat.and_two_pow_sub_one_eq_mod]

/-- Two fields with unused bits between them, each in its place. -/
theorem setWidth_append_zero_append {m k n : Nat} (x : BitVec m) (y : BitVec n) :
    (x ++ 0#k ++ y).setWidth 32 = (x ++ 0#(k + n)).setWidth 32 ||| y.setWidth 32 := by
  apply BitVec.eq_of_getLsbD_eq
  intro i hi
  simp only [BitVec.getLsbD_or, BitVec.getLsbD_setWidth, BitVec.getLsbD_append, BitVec.getLsbD_zero]
  by_cases hy : i < n
  · simp [hy, Nat.lt_add_left k hy]
  · have hsub : i - n - k = i - (k + n) := by omega
    have hiff : i - n < k ↔ i < k + n := by omega
    simp [hy, hsub, hiff, BitVec.getLsbD_of_ge y i (Nat.not_lt.1 hy)]

/-- Two neighbouring fields at the low end are one. -/
theorem extractLsb'_append_low (v : Word32) (len start : Nat) :
    v.extractLsb' start len ++ v.extractLsb' 0 start = v.extractLsb' 0 (len + start) := by
  apply BitVec.eq_of_getLsbD_eq
  intro i hi
  simp only [BitVec.getLsbD_append, BitVec.getLsbD_extractLsb', decide_eq_true hi, Nat.zero_add, Bool.true_and]
  by_cases hs : i < start
  · simp [hs]
  · have hcancel : start + (i - start) = i := by omega
    have hlen : i - start < len := by omega
    rw [if_neg hs, hcancel, decide_eq_true hlen, Bool.true_and]

theorem toNat_getLsbD (v : Word32) (i : Nat) : (v.getLsbD i).toNat = v.toNat / 2 ^ i % 2 := by
  rw [BitVec.getLsbD, Nat.toNat_testBit]

/-- CTRL reads its five bits as they were written. -/
theorem ctrlWord_writeCtrl (v : Word32) (c : Ctl) : ctrlWord (writeCtrl v c) = v &&& 0x1F#32 := by
  have hlow : (v.extractLsb' 0 5).setWidth 32 = v &&& 0x1F#32 := lowField_eq_and_mask v (by decide)
  rw [← hlow]
  apply BitVec.eq_of_toNat_eq
  rw [toNat_ctrlWord, BitVec.toNat_setWidth_of_le (by decide), BitVec.extractLsb'_toNat, Nat.shiftRight_zero]
  simp only [writeCtrl, toNat_getLsbD]
  omega

/-- The bits that a register stores of its data word, for the registers that store it (rule R217). -/
def storedBits : Csr → Option Word32
  | .ctrl => some 0x1F#32
  | .irqen => some 0x1F00#32
  | .sps | .syncthr => some 0x3F#32
  | .sqthr | .syncpatl => some 0xFFFFFFFF#32
  | .enshift | .nidcfg | .eshift => some 0xF#32
  | .folim | .dutab _ => some 0x7FFF#32
  | .foshift => some 0xFF#32
  | .tthr => some 0xFFFFFF#32
  | .tdiv => some 0x3FFF3FFF#32
  | .acqsyms => some 0x3FF#32
  | .syncpath | .srchwin => some 0xFFFF#32
  | .id | .cmd | .status | .decerrcnt | .framecnt | .loscnt | .synccnt | .tsamp | .foff | .energy | .symin
  | .lastnidl | .lastnidh | .eyeavg | .fpos => none

/-- A register that stores its data word reads as the bits it stores of it (rules R216 and R217). -/
theorem readCsr_writeCsr {r : Csr} {mask : Word32} {v : Word32} {s : State} (hmask : storedBits r = some mask)
    (h : ¬ RefusedWrite v s r) : readCsr r (writeCsr r v s) = v &&& mask := by
  cases r with
  | id | cmd | status | decerrcnt | framecnt | loscnt | synccnt | tsamp | foff | energy | symin | lastnidl | lastnidh
  | eyeavg | fpos => cases hmask
  | ctrl => cases hmask; exact ctrlWord_writeCtrl v s.ctl
  | irqen => cases hmask; exact field_eq_and_mask v 8 5
  | sps =>
    cases hmask
    rw [writeCsr, if_pos (by simpa [RefusedWrite] using h)]
    exact lowField_eq_and_mask v (by decide)
  | nidcfg =>
    cases hmask
    rw [writeCsr, if_pos (by simpa [RefusedWrite] using h)]
    exact lowField_eq_and_mask v (by decide)
  | sqthr => cases hmask; exact BitVec.and_allOnes.symm
  | syncpatl => cases hmask; exact BitVec.extractLsb'_append_eq_right.trans BitVec.and_allOnes.symm
  | syncpath =>
    cases hmask
    exact (congrArg (BitVec.setWidth 32) BitVec.extractLsb'_append_eq_left).trans
      (lowField_eq_and_mask v (by decide))
  | foshift =>
    cases hmask
    exact (congrArg (BitVec.setWidth 32) (extractLsb'_append_low v 4 4)).trans (lowField_eq_and_mask v (by decide))
  | tdiv =>
    cases hmask
    have hhigh := field_eq_and_mask v 16 14
    have hlow := lowField_eq_and_mask v (len := 14) (by decide)
    refine (setWidth_append_zero_append (k := 2) (v.extractLsb' 16 14) (v.extractLsb' 0 14)).trans ?_
    rw [hhigh, hlow, ← BitVec.and_or_distrib_left]
    rfl
  | dutab d =>
    cases hmask
    have hentry : dutEntry d (writeDutab d v s.ctl) = ⟨v.extractLsb' 12 3, v.extractLsb' 0 12⟩ :=
      Vector.getElem_set_self d.isLt
    simp only [writeCsr, readCsr, hentry, extractLsb'_append_low]
    exact lowField_eq_and_mask v (by decide)
  | enshift | folim | tthr | acqsyms | syncthr | srchwin | eshift =>
    cases hmask
    exact lowField_eq_and_mask v (by decide)

/-- A read returns its word in the list of words read. -/
theorem exec_csrr_of_csrOf {a : RegNum} {r : Csr} (h : csrOf a = some r) (s : State) :
    exec (.csrr a) s = .next (returnWord (readCsr r s) s) :=
  congrArg Host.Outcome.next (readPort_of_csrOf_some h s)

/-- The register numbers of the statement that are no DUTAB entry, with their masks. -/
def storingRegisters : List (RegNum × Word32) :=
  [(0x01#8, 0x1F#32), (0x04#8, 0x1F00#32), (0x05#8, 0x3F#32), (0x06#8, 0xFFFFFFFF#32), (0x07#8, 0xF#32),
    (0x08#8, 0x7FFF#32), (0x09#8, 0xFF#32), (0x0A#8, 0xFFFFFF#32), (0x0B#8, 0x3FFF3FFF#32), (0x0C#8, 0x3FF#32),
    (0x0D#8, 0x3F#32), (0x0E#8, 0xFFFFFFFF#32), (0x0F#8, 0xFFFF#32), (0x10#8, 0xFFFF#32), (0x11#8, 0xF#32),
    (0x1E#8, 0xF#32)]

theorem storedBits_of_mem {p : RegNum × Word32} (h : p ∈ storingRegisters) :
    (csrOf p.1).bind storedBits = some p.2 := by
  unfold storingRegisters at h
  fin_cases h <;> rfl

/-- The masks of the statement are those of the registers at their numbers. -/
theorem exists_csrOf_of_mask {a : RegNum} {mask : Word32}
    (h : (a, mask) ∈ storingRegisters ∨ a.toNat / 16 = 2 ∧ mask = 0x7FFF#32) :
    ∃ r, csrOf a = some r ∧ storedBits r = some mask := by
  rw [← Option.bind_eq_some_iff]
  rcases h with hfixed | ⟨hrange, rfl⟩
  · exact storedBits_of_mem hfixed
  · have hdigit : a.extractLsb' 4 4 = 2#4 := (highDigit_eq_two_iff a).2 (by omega)
    rw [csrOf, if_pos hdigit]
    rfl

/-- Settles O38: the write stores the bits of the register's mask and returns no word, so the read adds the one. -/
theorem readBackReturnsTheWrittenFields : Obligations.ReadBackReturnsTheWrittenFields := by
  intro v s a mask hmask herror
  obtain ⟨r, hr, hstored⟩ := exists_csrOf_of_mask hmask
  have hread : readCsr r (writeCsr r v s) = v &&& mask :=
    readCsr_writeCsr hstored (mt (writeError_iff_of_csrOf hr v s).2 herror)
  have hio : (writeCsr r v s).io = s.io := by
    refine writeCsr_io ?_ ?_ v s <;>
      · rintro rfl
        cases hstored
  refine ⟨_, _, exec_csrw_of_csrOf hr v s, exec_csrr_of_csrOf hr _, ?_⟩
  rw [returnWord_io_rdata, hread, hio]

end Sys2Proof.Machine
